-- ==== Sys2Proof/Word.lean ====
section
/-! DEFINITION. The word types of chip8_cpu_core: what the spec's 00_scope.md R6 and R8 give widths to. -/

namespace Sys2Proof

/-- An 8-bit value: a general register, a timer, a memory byte (R6 `V_WIDTH`, `TIMER_WIDTH`). -/
abbrev Byte := BitVec 8

/-- A 16-bit value: the program counter, the index register, an instruction word (R6, R90). -/
abbrev Word := BitVec 16

/-- A 4-bit field of an instruction word (R8). -/
abbrev Nibble := BitVec 4

/-- The 4-bit index of a general register, so always one of V0..VF (R24). -/
abbrev RegIdx := BitVec 4

/-- A 12-bit address operand `NNN` (R91), and the significant width of `I` (R6). -/
abbrev Addr12 := BitVec 12

/-- One row of the display: 64 Boolean pixels, column 0 the leftmost (R30). -/
abbrev PixelRow := Vector Bool 64

/-- The display buffer: 32 rows, row 0 the top (R30). -/
abbrev Display := Vector PixelRow 32

/-- `VF`, register 15, which is also the flag register (R22). -/
abbrev VF : RegIdx := 0xF#4

end Sys2Proof
end

