-- ==== Sys2Proof/Syntax.lean ====
section
/-! DEFINITION. The instructions: one constructor per row of spec/opcode_table.json (30_encoding.md R100).
Operands carry the width of their field (R91), so a register index is always in 0..15 (R24). -/

namespace Sys2Proof

/-- The 30 instructions of R100. `x`, `y` are the register fields, `nn` the byte operand, `nnn` the address operand,
`n` the sprite height (R91). The docstring of each constructor names its pattern and its rule. -/
inductive Instr where
  /-- `00E0` CLS (R180) -/
  | cls
  /-- `00EE` RTS (R120) -/
  | rts
  /-- `1NNN` JMP NNN (R121) -/
  | jmp (nnn : Addr12)
  /-- `2NNN` JSR NNN (R122) -/
  | jsr (nnn : Addr12)
  /-- `3XNN` SKEQ VX, NN (R123) -/
  | skeqImm (x : RegIdx) (nn : Byte)
  /-- `4XNN` SKNE VX, NN (R124) -/
  | skneImm (x : RegIdx) (nn : Byte)
  /-- `5XY0` SKEQ VX, VY (R125) -/
  | skeqReg (x y : RegIdx)
  /-- `6XNN` MOV VX, NN (R142) -/
  | movImm (x : RegIdx) (nn : Byte)
  /-- `7XNN` ADD VX, NN (R143) -/
  | addImm (x : RegIdx) (nn : Byte)
  /-- `8XY0` MOV VX, VY (R144) -/
  | movReg (x y : RegIdx)
  /-- `8XY1` OR VX, VY (R145) -/
  | orReg (x y : RegIdx)
  /-- `8XY2` AND VX, VY (R146) -/
  | andReg (x y : RegIdx)
  /-- `8XY3` XOR VX, VY (R147) -/
  | xorReg (x y : RegIdx)
  /-- `8XY4` ADD VX, VY (R149) -/
  | addReg (x y : RegIdx)
  /-- `8XY5` SUB VX, VY (R150) -/
  | subReg (x y : RegIdx)
  /-- `8XY6` SHR VX, VY (R151) -/
  | shr (x y : RegIdx)
  /-- `8XY7` RSB VX, VY (R152) -/
  | rsb (x y : RegIdx)
  /-- `8XYE` SHL VX, VY (R153) -/
  | shl (x y : RegIdx)
  /-- `9XY0` SKNE VX, VY (R126) -/
  | skneReg (x y : RegIdx)
  /-- `ANNN` MVI NNN (R170) -/
  | mvi (nnn : Addr12)
  /-- `BNNN` JMI NNN (R127) -/
  | jmi (nnn : Addr12)
  /-- `CXNN` RAND VX, NN (R154) -/
  | rand (x : RegIdx) (nn : Byte)
  /-- `DXYN` DRAW VX, VY, N (R182) -/
  | draw (x y : RegIdx) (n : Nibble)
  /-- `EX9E` SKPR VX (R200) -/
  | skpr (x : RegIdx)
  /-- `EXA1` SKUP VX (R201) -/
  | skup (x : RegIdx)
  /-- `FX07` GDELAY VX (R202) -/
  | gdelay (x : RegIdx)
  /-- `FX0A` KEY VX (R203) -/
  | key (x : RegIdx)
  /-- `FX15` SDELAY VX (R204) -/
  | sdelay (x : RegIdx)
  /-- `FX18` SSOUND VX (R205) -/
  | ssound (x : RegIdx)
  /-- `FX1E` ADI VX (R171) -/
  | adi (x : RegIdx)
  deriving DecidableEq, Repr

end Sys2Proof
end

