-- ==== Sys2Proof/WellFormed.lean ====
section
/-! DEFINITION. The opcode map of 30_encoding.md R100 as data (one row per instruction: mnemonic, match, mask), the
operand pattern of an instruction, and well-formedness: an operand pattern is well-formed for a row when it sets none of
the row's fixed bits. Operand fields carry their width in their type, so every Instr passes; the check itself refuses
patterns that do not fit (Tests/Slice0.lean). -/

namespace Sys2Proof

/-- One row of the opcode map: a word `w` selects it when `w & mask = pattern` (R100; `pattern` is R100's `match`). -/
structure Row where
  mnemonic : String
  pattern : Word
  mask : Word
  deriving DecidableEq, Repr

/-- `w & mask = match` (R100). -/
def Row.selects (r : Row) (w : Word) : Bool :=
  w &&& r.mask == r.pattern

/-- An operand pattern that leaves the row's fixed bits clear. -/
def Row.admits (r : Row) (operands : Word) : Bool :=
  operands &&& r.mask == 0#16

/-- Row `CLS` (R180). -/
def rowCls : Row := ⟨"CLS", 0x00E0#16, 0xFFFF#16⟩
/-- Row `RTS` (R120). -/
def rowRts : Row := ⟨"RTS", 0x00EE#16, 0xFFFF#16⟩
/-- Row `JMP_NNN` (R121). -/
def rowJmp : Row := ⟨"JMP_NNN", 0x1000#16, 0xF000#16⟩
/-- Row `JSR_NNN` (R122). -/
def rowJsr : Row := ⟨"JSR_NNN", 0x2000#16, 0xF000#16⟩
/-- Row `SKEQ_VX__NN` (R123). -/
def rowSkeqImm : Row := ⟨"SKEQ_VX__NN", 0x3000#16, 0xF000#16⟩
/-- Row `SKNE_VX__NN` (R124). -/
def rowSkneImm : Row := ⟨"SKNE_VX__NN", 0x4000#16, 0xF000#16⟩
/-- Row `SKEQ_VX__VY` (R125). -/
def rowSkeqReg : Row := ⟨"SKEQ_VX__VY", 0x5000#16, 0xF00F#16⟩
/-- Row `MOV_VX__NN` (R142). -/
def rowMovImm : Row := ⟨"MOV_VX__NN", 0x6000#16, 0xF000#16⟩
/-- Row `ADD_VX__NN` (R143). -/
def rowAddImm : Row := ⟨"ADD_VX__NN", 0x7000#16, 0xF000#16⟩
/-- Row `MOV_VX__VY` (R144). -/
def rowMovReg : Row := ⟨"MOV_VX__VY", 0x8000#16, 0xF00F#16⟩
/-- Row `OR_VX__VY` (R145). -/
def rowOrReg : Row := ⟨"OR_VX__VY", 0x8001#16, 0xF00F#16⟩
/-- Row `AND_VX__VY` (R146). -/
def rowAndReg : Row := ⟨"AND_VX__VY", 0x8002#16, 0xF00F#16⟩
/-- Row `XOR_VX__VY` (R147). -/
def rowXorReg : Row := ⟨"XOR_VX__VY", 0x8003#16, 0xF00F#16⟩
/-- Row `ADD_VX__VY` (R149). -/
def rowAddReg : Row := ⟨"ADD_VX__VY", 0x8004#16, 0xF00F#16⟩
/-- Row `SUB_VX__VY` (R150). -/
def rowSubReg : Row := ⟨"SUB_VX__VY", 0x8005#16, 0xF00F#16⟩
/-- Row `SHR_VX__VY` (R151). -/
def rowShr : Row := ⟨"SHR_VX__VY", 0x8006#16, 0xF00F#16⟩
/-- Row `RSB_VX__VY` (R152). -/
def rowRsb : Row := ⟨"RSB_VX__VY", 0x8007#16, 0xF00F#16⟩
/-- Row `SHL_VX__VY` (R153). -/
def rowShl : Row := ⟨"SHL_VX__VY", 0x800E#16, 0xF00F#16⟩
/-- Row `SKNE_VX__VY` (R126). -/
def rowSkneReg : Row := ⟨"SKNE_VX__VY", 0x9000#16, 0xF00F#16⟩
/-- Row `MVI_NNN` (R170). -/
def rowMvi : Row := ⟨"MVI_NNN", 0xA000#16, 0xF000#16⟩
/-- Row `JMI_NNN` (R127). -/
def rowJmi : Row := ⟨"JMI_NNN", 0xB000#16, 0xF000#16⟩
/-- Row `RAND_VX__NN` (R154). -/
def rowRand : Row := ⟨"RAND_VX__NN", 0xC000#16, 0xF000#16⟩
/-- Row `DRAW_VX__VY__N` (R182). -/
def rowDraw : Row := ⟨"DRAW_VX__VY__N", 0xD000#16, 0xF000#16⟩
/-- Row `SKPR_VX` (R200). -/
def rowSkpr : Row := ⟨"SKPR_VX", 0xE09E#16, 0xF0FF#16⟩
/-- Row `SKUP_VX` (R201). -/
def rowSkup : Row := ⟨"SKUP_VX", 0xE0A1#16, 0xF0FF#16⟩
/-- Row `GDELAY_VX` (R202). -/
def rowGdelay : Row := ⟨"GDELAY_VX", 0xF007#16, 0xF0FF#16⟩
/-- Row `KEY_VX` (R203). -/
def rowKey : Row := ⟨"KEY_VX", 0xF00A#16, 0xF0FF#16⟩
/-- Row `SDELAY_VX` (R204). -/
def rowSdelay : Row := ⟨"SDELAY_VX", 0xF015#16, 0xF0FF#16⟩
/-- Row `SSOUND_VX` (R205). -/
def rowSsound : Row := ⟨"SSOUND_VX", 0xF018#16, 0xF0FF#16⟩
/-- Row `ADI_VX` (R171). -/
def rowAdi : Row := ⟨"ADI_VX", 0xF01E#16, 0xF0FF#16⟩

/-- The opcode map's rows for families 0 to 7 (R100). -/
def opcodeRowsLow : List Row :=
  [rowCls, rowRts, rowJmp, rowJsr, rowSkeqImm, rowSkneImm, rowSkeqReg, rowMovImm, rowAddImm]

/-- The opcode map's rows for family 8 (R100). -/
def opcodeRowsFamily8 : List Row :=
  [rowMovReg, rowOrReg, rowAndReg, rowXorReg, rowAddReg, rowSubReg, rowShr, rowRsb, rowShl]

/-- The opcode map's rows for families 9 to F (R100). -/
def opcodeRowsHigh : List Row :=
  [rowSkneReg, rowMvi, rowJmi, rowRand, rowDraw, rowSkpr, rowSkup, rowGdelay, rowKey, rowSdelay, rowSsound, rowAdi]

/-- The complete opcode map: 30 rows (R100). -/
def opcodeTable : List Row := opcodeRowsLow ++ opcodeRowsFamily8 ++ opcodeRowsHigh

/-- The row of the opcode map an instruction stands for. -/
def Instr.row : Instr → Row
  | .cls => rowCls
  | .rts => rowRts
  | .jmp _ => rowJmp
  | .jsr _ => rowJsr
  | .skeqImm _ _ => rowSkeqImm
  | .skneImm _ _ => rowSkneImm
  | .skeqReg _ _ => rowSkeqReg
  | .movImm _ _ => rowMovImm
  | .addImm _ _ => rowAddImm
  | .movReg _ _ => rowMovReg
  | .orReg _ _ => rowOrReg
  | .andReg _ _ => rowAndReg
  | .xorReg _ _ => rowXorReg
  | .addReg _ _ => rowAddReg
  | .subReg _ _ => rowSubReg
  | .shr _ _ => rowShr
  | .rsb _ _ => rowRsb
  | .shl _ _ => rowShl
  | .skneReg _ _ => rowSkneReg
  | .mvi _ => rowMvi
  | .jmi _ => rowJmi
  | .rand _ _ => rowRand
  | .draw _ _ _ => rowDraw
  | .skpr _ => rowSkpr
  | .skup _ => rowSkup
  | .gdelay _ => rowGdelay
  | .key _ => rowKey
  | .sdelay _ => rowSdelay
  | .ssound _ => rowSsound
  | .adi _ => rowAdi

/-- Operand pattern of format A: `NNN` in bits 11..0 (R93). -/
def operandsA (nnn : Addr12) : Word := nnn.setWidth 16

/-- Operand pattern of format X: `x` in bits 11..8 (R93). -/
def operandsX (x : RegIdx) : Word := x.setWidth 16 <<< 8

/-- Operand pattern of format XNN: `x` in bits 11..8, `NN` in bits 7..0 (R93). -/
def operandsXNN (x : RegIdx) (nn : Byte) : Word := x.setWidth 16 <<< 8 ||| nn.setWidth 16

/-- Operand pattern of format XY: `x` in bits 11..8, `y` in bits 7..4 (R93). -/
def operandsXY (x y : RegIdx) : Word := x.setWidth 16 <<< 8 ||| y.setWidth 16 <<< 4

/-- Operand pattern of format XYN: `x`, `y` and the height `N` in bits 3..0 (R93). -/
def operandsXYN (x y : RegIdx) (n : Nibble) : Word := operandsXY x y ||| n.setWidth 16

/-- The bits an instruction's operands put into its word (R91, R93). -/
def Instr.operandBits : Instr → Word
  | .cls => 0#16
  | .rts => 0#16
  | .jmp nnn => operandsA nnn
  | .jsr nnn => operandsA nnn
  | .skeqImm x nn => operandsXNN x nn
  | .skneImm x nn => operandsXNN x nn
  | .skeqReg x y => operandsXY x y
  | .movImm x nn => operandsXNN x nn
  | .addImm x nn => operandsXNN x nn
  | .movReg x y => operandsXY x y
  | .orReg x y => operandsXY x y
  | .andReg x y => operandsXY x y
  | .xorReg x y => operandsXY x y
  | .addReg x y => operandsXY x y
  | .subReg x y => operandsXY x y
  | .shr x y => operandsXY x y
  | .rsb x y => operandsXY x y
  | .shl x y => operandsXY x y
  | .skneReg x y => operandsXY x y
  | .mvi nnn => operandsA nnn
  | .jmi nnn => operandsA nnn
  | .rand x nn => operandsXNN x nn
  | .draw x y n => operandsXYN x y n
  | .skpr x => operandsX x
  | .skup x => operandsX x
  | .gdelay x => operandsX x
  | .key x => operandsX x
  | .sdelay x => operandsX x
  | .ssound x => operandsX x
  | .adi x => operandsX x

/-- An instruction is well-formed when its operands fit the free bits of its row. -/
def Instr.wellFormed (i : Instr) : Bool := i.row.admits i.operandBits

end Sys2Proof
end

