-- ==== Sys2Proof/Decode.lean ====
section
/-! DEFINITION. The instruction decoder and encoder (30_encoding.md R90 to R106): total decoding by the 4-nibble pattern,
rejecting by name, and the encoder written from the formats of R93. -/

namespace Sys2Proof

/-- Why the decoder gives no instruction. -/
inductive Rejection where
  /-- The word matches no row of R100 (R101, R105). -/
  | unimplementedOpcode (w : Word)
  /-- Fewer than the two bytes of one word (R90). -/
  | truncated
  deriving DecidableEq, Repr

/-- `n0 = w[15:12]`, the opcode family (R91). -/
def fieldFamily (w : Word) : Nibble := w.extractLsb' 12 4

/-- `x = n1 = w[11:8]` (R91). -/
def fieldX (w : Word) : RegIdx := w.extractLsb' 8 4

/-- `y = n2 = w[7:4]` (R91). -/
def fieldY (w : Word) : RegIdx := w.extractLsb' 4 4

/-- `N = n3 = w[3:0]` (R91). -/
def fieldN (w : Word) : Nibble := w.extractLsb' 0 4

/-- `NN = w[7:0]` (R91). -/
def fieldNN (w : Word) : Byte := w.extractLsb' 0 8

/-- `NNN = w[11:0]` (R91). -/
def fieldNNN (w : Word) : Addr12 := w.extractLsb' 0 12

/-- Family 0 matches only the two exact words 0x00E0 and 0x00EE (R102). -/
def decodeFamily0 (w : Word) : Except Rejection Instr :=
  if w = 0x00E0#16 then .ok .cls
  else if w = 0x00EE#16 then .ok .rts
  else .error (.unimplementedOpcode w)

/-- Family 8: `n3` selects the operation (R93, R100). -/
def decodeFamily8 (w : Word) : Except Rejection Instr :=
  match (fieldN w).toNat with
  | 0x0 => .ok (.movReg (fieldX w) (fieldY w))
  | 0x1 => .ok (.orReg (fieldX w) (fieldY w))
  | 0x2 => .ok (.andReg (fieldX w) (fieldY w))
  | 0x3 => .ok (.xorReg (fieldX w) (fieldY w))
  | 0x4 => .ok (.addReg (fieldX w) (fieldY w))
  | 0x5 => .ok (.subReg (fieldX w) (fieldY w))
  | 0x6 => .ok (.shr (fieldX w) (fieldY w))
  | 0x7 => .ok (.rsb (fieldX w) (fieldY w))
  | 0xE => .ok (.shl (fieldX w) (fieldY w))
  | _ => .error (.unimplementedOpcode w)

/-- Family E matches only the low bytes 9E and A1 (R102). -/
def decodeFamilyE (w : Word) : Except Rejection Instr :=
  match (fieldNN w).toNat with
  | 0x9E => .ok (.skpr (fieldX w))
  | 0xA1 => .ok (.skup (fieldX w))
  | _ => .error (.unimplementedOpcode w)

/-- Family F matches only the low bytes 07, 0A, 15, 18 and 1E (R102). -/
def decodeFamilyF (w : Word) : Except Rejection Instr :=
  match (fieldNN w).toNat with
  | 0x07 => .ok (.gdelay (fieldX w))
  | 0x0A => .ok (.key (fieldX w))
  | 0x15 => .ok (.sdelay (fieldX w))
  | 0x18 => .ok (.ssound (fieldX w))
  | 0x1E => .ok (.adi (fieldX w))
  | _ => .error (.unimplementedOpcode w)

/-- The instruction of a 16-bit word, or the rejection of a word that matches no row (R91, R100 to R102).
Families 5 and 9 match only with `n3 = 0` (R102). -/
def decodeWord (w : Word) : Except Rejection Instr :=
  match (fieldFamily w).toNat with
  | 0x0 => decodeFamily0 w
  | 0x1 => .ok (.jmp (fieldNNN w))
  | 0x2 => .ok (.jsr (fieldNNN w))
  | 0x3 => .ok (.skeqImm (fieldX w) (fieldNN w))
  | 0x4 => .ok (.skneImm (fieldX w) (fieldNN w))
  | 0x5 => if fieldN w = 0#4 then .ok (.skeqReg (fieldX w) (fieldY w)) else .error (.unimplementedOpcode w)
  | 0x6 => .ok (.movImm (fieldX w) (fieldNN w))
  | 0x7 => .ok (.addImm (fieldX w) (fieldNN w))
  | 0x8 => decodeFamily8 w
  | 0x9 => if fieldN w = 0#4 then .ok (.skneReg (fieldX w) (fieldY w)) else .error (.unimplementedOpcode w)
  | 0xA => .ok (.mvi (fieldNNN w))
  | 0xB => .ok (.jmi (fieldNNN w))
  | 0xC => .ok (.rand (fieldX w) (fieldNN w))
  | 0xD => .ok (.draw (fieldX w) (fieldY w) (fieldN w))
  | 0xE => decodeFamilyE w
  | 0xF => decodeFamilyF w
  | _ => .error (.unimplementedOpcode w)

/-- The word of two bytes, the byte at the lower address high (R65, R66). -/
def wordOfBytes (hi lo : Byte) : Word := hi ++ lo

/-- Decoding from a byte sequence: the first two bytes are one big-endian word (R90, R66); the rest is handed back. -/
def decode : List Byte → Except Rejection (Instr × List Byte)
  | hi :: lo :: rest =>
    match decodeWord (wordOfBytes hi lo) with
    | .ok i => .ok (i, rest)
    | .error r => .error r
  | _ => .error .truncated

/-- A word from its four nibbles (formats XY and XYN of R93). -/
def ofNibbles (n0 n1 n2 n3 : Nibble) : Word := n0 ++ n1 ++ n2 ++ n3

/-- A word from family, register and byte (formats XNN and X of R93). -/
def ofFamilyByte (n0 n1 : Nibble) (nn : Byte) : Word := n0 ++ n1 ++ nn

/-- A word from family and address (format A of R93). -/
def ofFamilyAddress (n0 : Nibble) (nnn : Addr12) : Word := n0 ++ nnn

/-- The word of an instruction (R93, R100). -/
def encode : Instr → Word
  | .cls => 0x00E0#16
  | .rts => 0x00EE#16
  | .jmp nnn => ofFamilyAddress 0x1#4 nnn
  | .jsr nnn => ofFamilyAddress 0x2#4 nnn
  | .skeqImm x nn => ofFamilyByte 0x3#4 x nn
  | .skneImm x nn => ofFamilyByte 0x4#4 x nn
  | .skeqReg x y => ofNibbles 0x5#4 x y 0x0#4
  | .movImm x nn => ofFamilyByte 0x6#4 x nn
  | .addImm x nn => ofFamilyByte 0x7#4 x nn
  | .movReg x y => ofNibbles 0x8#4 x y 0x0#4
  | .orReg x y => ofNibbles 0x8#4 x y 0x1#4
  | .andReg x y => ofNibbles 0x8#4 x y 0x2#4
  | .xorReg x y => ofNibbles 0x8#4 x y 0x3#4
  | .addReg x y => ofNibbles 0x8#4 x y 0x4#4
  | .subReg x y => ofNibbles 0x8#4 x y 0x5#4
  | .shr x y => ofNibbles 0x8#4 x y 0x6#4
  | .rsb x y => ofNibbles 0x8#4 x y 0x7#4
  | .shl x y => ofNibbles 0x8#4 x y 0xE#4
  | .skneReg x y => ofNibbles 0x9#4 x y 0x0#4
  | .mvi nnn => ofFamilyAddress 0xA#4 nnn
  | .jmi nnn => ofFamilyAddress 0xB#4 nnn
  | .rand x nn => ofFamilyByte 0xC#4 x nn
  | .draw x y n => ofNibbles 0xD#4 x y n
  | .skpr x => ofFamilyByte 0xE#4 x 0x9E#8
  | .skup x => ofFamilyByte 0xE#4 x 0xA1#8
  | .gdelay x => ofFamilyByte 0xF#4 x 0x07#8
  | .key x => ofFamilyByte 0xF#4 x 0x0A#8
  | .sdelay x => ofFamilyByte 0xF#4 x 0x15#8
  | .ssound x => ofFamilyByte 0xF#4 x 0x18#8
  | .adi x => ofFamilyByte 0xF#4 x 0x1E#8

/-- The high byte of a word, stored at the lower address (R65). -/
def highByte (w : Word) : Byte := w.extractLsb' 8 8

/-- The low byte of a word, stored at the higher address (R65). -/
def lowByte (w : Word) : Byte := w.extractLsb' 0 8

/-- The two bytes of a word as memory holds them, lowest address first (R66). -/
def bytesOfWord (w : Word) : List Byte := [highByte w, lowByte w]

/-- The instruction's bytes in memory order. -/
def encodeBytes (i : Instr) : List Byte := bytesOfWord (encode i)

/-- The 16-bit instruction word of a table row: its `nbits` low bits are given, the others are 0. -/
def tableWord (nbits w : Nat) : Word := BitVec.ofNat 16 (w % 2 ^ nbits)

/-- The decoder on a word as spec/opcode_table.json numbers its bits, laid out as memory stores it. -/
def decodeTableWord (nbits w : Nat) : Option Instr :=
  match decode (bytesOfWord (tableWord nbits w)) with
  | .ok (i, _) => some i
  | .error _ => none

end Sys2Proof
end

