-- ==== Sys2Proof/Config.lean ====
section
/-! DEFINITION. What an implementation fixes (00_scope.md R6, 10_state.md R34) and the free values: values the spec
leaves open while the machine goes on. A free value is an opaque constant, so a proof about it holds for every value. -/

namespace Sys2Proof

/-- Shift behaviour of SHR and SHL (R34; 92_eei_decisions.md D8). -/
inductive ShiftMode where
  | vyCopy
  | inPlace
  deriving DecidableEq, Repr

/-- Offset register of JMI (R34; 92_eei_decisions.md D9). -/
inductive JumpMode where
  | v0
  | vx
  deriving DecidableEq, Repr

/-- Flag rule of SUB (R34; 92_eei_decisions.md D10). -/
inductive SubFlagMode where
  | corrected
  | legacyZero
  deriving DecidableEq, Repr

/-- What the host does after an `UnimplementedOpcode` report (R6 `UNIMPL_POLICY`, R227; D19). -/
inductive UnimplPolicy where
  | halt
  | skip
  deriving DecidableEq, Repr

namespace Config

/-- `MEM_SIZE` of R6. -/
def memSize : Nat := 4096

/-- The highest byte address, 0xFFF (R60). -/
def lastAddress : Nat := 0xFFF

/-- `STACK_DEPTH` of R6. -/
def stackDepth : Nat := 16

/-- `PROGRAM_START` of R6: the reset value of PC and the load offset of a program (R261, R262). -/
def programStart : Word := 0x200#16

/-- `DISPLAY_H` of R6. -/
def displayRows : Nat := 32

/-- `DISPLAY_W` of R6. -/
def displayColumns : Nat := 64

/-- `NUM_KEYS` of R6. -/
def numKeys : Nat := 16

/-- FREE VALUE (R154, R239; log entry 4): the random byte the host offers with its n-th unscripted CYCLE. -/
opaque freeRnd : Nat → Byte

/-- FREE VALUE (R182, R226; log entry 5): the contents of `VF` after a DRAW that ended in `OutOfBoundsAccess`. -/
opaque freeVF : Nat → Byte

/-- FREE VALUE (R182, R226; log entry 5): the contents of `Disp` after a DRAW that ended in `OutOfBoundsAccess`. -/
opaque freeDisplay : Nat → Display

end Config

end Sys2Proof
end

