-- ==== Sys2Proof/Machine/State.lean ====
section
/-! DEFINITION. The state of chip8_cpu_core as plain data (10_state.md R20), the driver that issues its commands (R50),
the kinds of failure (60_exceptions.md R220) and the state after reset (R260). -/

namespace Sys2Proof.Machine

/-- The failure kinds of R220. They are results recorded in the state, not stops of the model. -/
inductive FailureKind where
  /-- Code 1: fetch at an address above 0xFFE (R65). Raised by every CYCLE. -/
  | outOfBoundsFetch
  /-- Code 2: JSR with 16 entries on the stack (R122). -/
  | stackOverflow
  /-- Code 3: RTS with an empty stack (R120). -/
  | stackUnderflow
  /-- Code 4: unreachable, no rule raises it (R221). -/
  | invalidRegisterIndex
  /-- Code 5: a word that matches no row of the opcode map (R105). -/
  | unimplementedOpcode
  /-- Code 6: a drawn sprite row read above 0xFFF (R182). -/
  | outOfBoundsAccess
  /-- Code 7: `V[x] > 15` used as a key index (R200, R201). -/
  | invalidKeyIndex
  deriving DecidableEq, Repr

/-- The `fault` record of R35: kind, instruction address `a`, instruction word `w` (absent for a failed fetch). -/
structure FaultRecord where
  kind : FailureKind
  addr : Word
  word : Option Word
  deriving DecidableEq, Repr

/-- What a CYCLE takes in and gives back (R52, R230, and the trace event of R241): the address `a` and word `w` of the
instruction, the sampled byte `rnd`, and the returned result (`none` is OK). Log entry 8. -/
structure CycleIO where
  addr : Word
  word : Option Word
  rnd : Byte
  result : Option FailureKind
  deriving DecidableEq, Repr

/-- The arguments of CREATE (R51). `memInit` lists the bytes from address 0 on; a byte it does not give is 0. -/
structure CreateParams where
  shiftMode : ShiftMode
  jumpMode : JumpMode
  subFlagMode : SubFlagMode
  iInit : Addr12
  dtInit : Byte
  stInit : Byte
  memInit : List Byte
  deriving DecidableEq, Repr

/-- The five interface commands (R50). -/
inductive Command where
  /-- CREATE (R51). -/
  | create (p : CreateParams)
  /-- CYCLE(`rnd`) (R52, R230). -/
  | cycle (rnd : Byte)
  /-- TICK (R53, R235). -/
  | tick
  /-- KEY_SET(`k`, `p`) (R54). -/
  | keySet (k : Nat) (pressed : Bool)
  /-- LOAD(`offset`, `bytes`) (R55, R70). -/
  | load (offset : Nat) (bytes : List Byte)
  deriving DecidableEq, Repr

/-- The source's "driver", the host that issues commands (R50): the commands it has still to issue, and its policy on
`UnimplementedOpcode` (R227). With no command left in the script it goes on issuing CYCLEs. Log entries 3 and 9. -/
structure Driver where
  script : List Command
  policy : UnimplPolicy
  deriving DecidableEq, Repr

/-- Memory contents: address and byte pairs in the canonical form of `Memory.wf` (Machine/Ops.lean). -/
abbrev Memory := List Host.Cell

/-- The state of the core (R20), with the model's own fields `cyc`, `free` and `drv` last. -/
structure State where
  /-- `V[0]`..`V[15]` (R21). -/
  v : Vector Byte 16
  /-- `I`: 16 bits, the upper four always 0 (R25). -/
  index : Word
  /-- `PC` (R26). -/
  pc : Word
  /-- `Stack`, newest entry first; its length is the depth counter `SP` of R29 (R28). -/
  stack : List Word
  /-- `Disp` (R30). -/
  disp : Display
  /-- `DT` (R31). -/
  dt : Byte
  /-- `ST` (R31). -/
  st : Byte
  /-- `Key[0..15]` (R32). -/
  keys : Vector Bool 16
  /-- `Mem[0x000..0xFFF]` (R60). -/
  mem : Memory
  /-- `halted` (R35). -/
  halted : Bool
  /-- `fault` (R35). -/
  fault : Option FaultRecord
  /-- `draw_flag` (R36). -/
  drawFlag : Bool
  /-- `SHIFT_MODE` (R34). -/
  shiftMode : ShiftMode
  /-- `JUMP_MODE` (R34). -/
  jumpMode : JumpMode
  /-- `SUB_FLAG_MODE` (R34). -/
  subFlagMode : SubFlagMode
  /-- MODEL'S OWN: input and output of the current or last CYCLE (log entry 8). -/
  cyc : CycleIO
  /-- MODEL'S OWN: how many free values have been drawn (log entry 4). -/
  free : Nat
  /-- MODEL'S OWN: the host that issues the commands (log entry 3). -/
  drv : Driver
  deriving DecidableEq, Repr

/-- Reasons for a step to stop with a fault. No step of this model ends so: every failure of R220 has a described effect
on the state (R223 to R226) and is a next state. -/
inductive Fault where
  /-- R221: "treat any occurrence as a defect", kept as a fault no step produces. Raised by nobody; safe. -/
  | invalidRegisterIndex
  deriving DecidableEq, Repr

/-- Reasons for a step to be refused. -/
inductive Refusal where
  /-- An instruction without a meaning in `exec`. Raised by nobody: every instruction has its meaning; safe. -/
  | notModelled (mnemonic : String)
  deriving DecidableEq, Repr

/-- The state after CREATE (R20, R260) with the default configuration (R34), the OPEN parameters `I_INIT`, `DT_INIT`,
`ST_INIT` and `MEM_INIT` at 0 (log entries 1 and 2), and a driver with no scripted command (log entry 3). -/
def State.reset : State where
  v := Vector.replicate 16 0x00#8
  index := 0x000#16
  pc := Config.programStart
  stack := []
  disp := Vector.replicate 32 (Vector.replicate 64 false)
  dt := 0x00#8
  st := 0x00#8
  keys := Vector.replicate 16 false
  mem := []
  halted := false
  fault := none
  drawFlag := false
  shiftMode := .vyCopy
  jumpMode := .v0
  subFlagMode := .corrected
  cyc := { addr := 0x0000#16, word := none, rnd := 0x00#8, result := none }
  free := 0
  drv := { script := [], policy := .skip }

end Sys2Proof.Machine
end

