-- ==== Sys2Proof/Machine/Ops.lean ====
section
/-! DEFINITION. The named operations on the state: memory (20_memory.md R60 to R70), registers (10_state.md R21 to R26),
the call stack (R28, R29), keys (R32), pixels (R30), and raising a failure (60_exceptions.md R220 to R227). -/

namespace Sys2Proof.Machine

/-! ## Memory -/

/-- What an address that memory does not list reads as (log entry 2). -/
def unlistedByte : Byte := 0x00#8

/-- The byte at an address. -/
def Memory.read : Memory → Nat → Byte
  | [], _ => unlistedByte
  | (k, c) :: m, a => if k = a then c else Memory.read m a

/-- Put a byte in front of cells of higher addresses, listing it only when it differs from an unlisted one. -/
def Memory.put (a : Nat) (b : Byte) (m : Memory) : Memory :=
  if b = unlistedByte then m else (a, b) :: m

/-- Replace the byte at an address, keeping the canonical form. -/
def Memory.write : Memory → Nat → Byte → Memory
  | [], a, b => Memory.put a b []
  | (k, c) :: m, a, b =>
    if k < a then (k, c) :: Memory.write m a b
    else if k = a then Memory.put a b m
    else Memory.put a b ((k, c) :: m)

/-- Canonical form from address `lo` on: addresses strictly rising, inside the address space, no unlisted byte listed. -/
def Memory.wfFrom (lo : Nat) : Memory → Bool
  | [] => true
  | (k, c) :: m => decide (lo ≤ k) && decide (k ≤ Config.lastAddress) && decide (c ≠ unlistedByte) && Memory.wfFrom (k + 1) m

/-- The canonical form of memory. -/
def Memory.wf (m : Memory) : Bool := Memory.wfFrom 0 m

/-- `MemRead(addr, 1)`: no byte above 0xFFF, never a wrapped address (R61, R63). -/
def State.memRead (s : State) (addr : Nat) : Option Byte :=
  if addr > Config.lastAddress then none else some (s.mem.read addr)

/-- `MemWrite(addr, 1, v)` for an address in 0x000..0xFFF (R64); an address above is dropped (R70). -/
def State.memWrite (s : State) (addr : Nat) (b : Byte) : State :=
  if addr ≤ Config.lastAddress then { s with mem := s.mem.write addr b } else s

/-- Write a byte sequence from `offset` on, dropping what lies above 0xFFF (R70). -/
def State.loadBytes (s : State) (offset : Nat) : List Byte → State
  | [] => s
  | b :: bs => (s.memWrite offset b).loadBytes (offset + 1) bs

/-! ## Registers -/

/-- `V[x]` (R10, R21). -/
def State.readV (s : State) (x : RegIdx) : Byte := s.v.get x.toFin

/-- `V[x] <- b` (R10, R21). -/
def State.writeV (s : State) (x : RegIdx) (b : Byte) : State := { s with v := s.v.set x.toNat b x.isLt }

/-- `I <- w`: every write stores `w & 0xFFF` (R25). -/
def State.writeIndex (s : State) (w : Word) : State := { s with index := w &&& 0x0FFF#16 }

/-- `PC <- target`, never masked (R27). -/
def State.setPc (s : State) (target : Word) : State := { s with pc := target }

/-- A skip: 2 more on top of the fetch's advance (R26). -/
def State.skipNext (s : State) : State := s.setPc (s.pc + 2#16)

/-- KEY's rewind to its own address (R203). -/
def State.rewind (s : State) : State := s.setPc (s.pc - 2#16)

/-- `DT <- b` (R31). -/
def State.writeDt (s : State) (b : Byte) : State := { s with dt := b }

/-- `ST <- b` (R31). -/
def State.writeSt (s : State) (b : Byte) : State := { s with st := b }

/-! ## Call stack -/

/-- The depth counter `SP` of R29. -/
def State.sp (s : State) : Nat := s.stack.length

/-- Stack slot `i` of R29, oldest entry in slot 0; slots at or above `SP` are unobservable and read as none. -/
def State.slot (s : State) (i : Nat) : Option Word := s.stack.reverse[i]?

/-- `push(w)`; none when the stack already holds 16 entries (R28). -/
def State.push (s : State) (w : Word) : Option State :=
  if s.stack.length < Config.stackDepth then some { s with stack := w :: s.stack } else none

/-- `pop()`: the newest entry and the state without it; none on an empty stack (R28). -/
def State.pop (s : State) : Option (Word × State) :=
  match s.stack with
  | [] => none
  | top :: below => some (top, { s with stack := below })

/-! ## Keys and pixels -/

/-- `Key[k]` for a key index in 0..15, none above (R32). -/
def State.key (s : State) (k : Nat) : Option Bool := s.keys[k]?

/-- `Disp[r][c]`, none outside the 32 rows and 64 columns (R30). -/
def Display.pixel (d : Display) (r c : Nat) : Option Bool := (d[r]?).bind fun row => row[c]?

/-- `Disp[r][c]` of a state. -/
def State.pixel (s : State) (r c : Nat) : Option Bool := Display.pixel s.disp r c

/-- The blank display. -/
def Display.blank : Display := Vector.replicate 32 (Vector.replicate 64 false)

/-! ## Failures: the one shared operation -/

/-- The numeric code of a failure kind (R220; 92_eei_decisions.md D16). -/
def FailureKind.code : FailureKind → Nat
  | .outOfBoundsFetch => 1
  | .stackOverflow => 2
  | .stackUnderflow => 3
  | .invalidRegisterIndex => 4
  | .unimplementedOpcode => 5
  | .outOfBoundsAccess => 6
  | .invalidKeyIndex => 7

/-- The kinds that halt the core (R220, R224; D17). -/
def FailureKind.fatal : FailureKind → Bool
  | .outOfBoundsFetch => true
  | .stackOverflow => true
  | .stackUnderflow => true
  | .invalidRegisterIndex => true
  | .unimplementedOpcode => false
  | .outOfBoundsAccess => true
  | .invalidKeyIndex => true

/-- `raise K(a, w)` (R223, R224, R226): record kind, address and word in `fault`, halt on a fatal kind, and return the
kind as the CYCLE's result. There is no vector, saved status, mode change or handler (R226), and no return from a failure:
only CREATE leaves the halted state (R225). -/
def State.raise (s : State) (k : FailureKind) : State :=
  { s with
    fault := some { kind := k, addr := s.cyc.addr, word := s.cyc.word }
    halted := s.halted || k.fatal
    cyc := { s.cyc with result := some k } }

end Sys2Proof.Machine
end

