-- ==== Sys2Proof/Machine/Flags.lean ====
section
/-! DEFINITION. The values written to `VF` as a flag (42_register_alu.md R148 to R153, 43_index_register.md R171,
44_display.md R182), and the order of the flag write and the destination write (R140). -/

namespace Sys2Proof.Machine

/-- A flag as a register value: 1 or 0. -/
def flagByte (b : Bool) : Byte := if b then 0x01#8 else 0x00#8

/-- Carry out of an 8-bit sum: 1 iff the exact sum exceeds 255 (R149). -/
def carryFlag (a b : Byte) : Bool := decide (a.toNat + b.toNat > 0xFF)

/-- No borrow in `a - b`: 1 iff `a ≥ b` (R150, R152). -/
def noBorrowFlag (a b : Byte) : Bool := decide (b.toNat ≤ a.toNat)

/-- The flag of SUB: no borrow, or always 0 in `LEGACY_ZERO` mode (R150). -/
def subFlag (mode : SubFlagMode) (a b : Byte) : Bool :=
  match mode with
  | .corrected => noBorrowFlag a b
  | .legacyZero => false

/-- The bit SHR reports: bit 0 (R151). -/
def lowBitFlag (a : Byte) : Bool := a.getLsbD 0

/-- The bit SHL reports: bit 7 (R153). -/
def highBitFlag (a : Byte) : Bool := a.getLsbD 7

/-- The exact sum of ADI (R171: a 32-bit intermediate, which the sum never fills). -/
def indexSum (i : Word) (b : Byte) : Nat := i.toNat + b.toNat

/-- The flag of ADI: 1 iff the sum exceeds 0xFFF (R171). -/
def indexOverflowFlag (i : Word) (b : Byte) : Bool := decide (indexSum i b > Config.lastAddress)

/-- `V[0xF] <- flag`. -/
def State.writeFlag (s : State) (flag : Bool) : State := s.writeV VF (flagByte flag)

/-- `VF` first, then the destination, so with `x = 0xF` the result stays (R140; 92_eei_decisions.md D6). -/
def State.writeFlagThenV (s : State) (flag : Bool) (x : RegIdx) (b : Byte) : State := (s.writeFlag flag).writeV x b

end Sys2Proof.Machine
end

