-- ==== Sys2Proof/Machine/Operands.lean ====
section
/-! DEFINITION. Operand forms: zero extension of immediates (30_encoding.md R92), the offset register of JMI (R127), the
operand SHR and SHL shift (R151, R153), the key index of SKPR and SKUP (R200), and the sprite anchor of DRAW (R182). -/

namespace Sys2Proof.Machine

/-- `zext_16(NNN)` (R92). -/
def zextAddress (nnn : Addr12) : Word := nnn.setWidth 16

/-- `zext_16` of a byte (R9). -/
def zextByte (b : Byte) : Word := b.setWidth 16

/-- The register named by the leading nibble of `NNN`, `w[11:8]` (R127). -/
def leadingRegister (nnn : Addr12) : RegIdx := nnn.extractLsb' 8 4

/-- The offset of JMI: `V0`, or `V[x]` when `JUMP_MODE = VX` (R127). -/
def State.jumpOffset (s : State) (nnn : Addr12) : Byte :=
  match s.jumpMode with
  | .v0 => s.readV 0x0#4
  | .vx => s.readV (leadingRegister nnn)

/-- The value SHR and SHL shift: the copied `V[y]`, or the original `V[x]` when `SHIFT_MODE = IN_PLACE` (R151, R153). -/
def State.shiftOperand (s : State) (x y : RegIdx) : Byte :=
  match s.shiftMode with
  | .vyCopy => s.readV y
  | .inPlace => s.readV x

/-- The key flag selected by `V[x]`, none when `V[x] > 15` (R200, R201). -/
def State.selectedKey (s : State) (x : RegIdx) : Option Bool := s.key (s.readV x).toNat

/-- The sprite's anchor column, `V[x] mod 64` (R182). -/
def State.anchorColumn (s : State) (x : RegIdx) : Nat := (s.readV x).toNat % Config.displayColumns

/-- The sprite's anchor row, `V[y] mod 32` (R182). -/
def State.anchorRow (s : State) (y : RegIdx) : Nat := (s.readV y).toNat % Config.displayRows

end Sys2Proof.Machine
end

