-- ==== Sys2Proof/Machine/Alu.lean ====
section
/-! DEFINITION. Register moves, logic and arithmetic (42_register_alu.md R142 to R154). Every meaning reads its sources
before its first write (R140); none changes the program counter and none fails. -/

namespace Sys2Proof.Machine

/-- MOV VX, NN (R142). -/
def execMovImm (x : RegIdx) (nn : Byte) (s : State) : Host.Outcome State Fault Refusal :=
  .next (s.writeV x nn)

/-- ADD VX, NN: the sum's low 8 bits, no flag (R143). -/
def execAddImm (x : RegIdx) (nn : Byte) (s : State) : Host.Outcome State Fault Refusal :=
  .next (s.writeV x (s.readV x + nn))

/-- MOV VX, VY (R144). -/
def execMovReg (x y : RegIdx) (s : State) : Host.Outcome State Fault Refusal :=
  .next (s.writeV x (s.readV y))

/-- OR VX, VY (R145). -/
def execOrReg (x y : RegIdx) (s : State) : Host.Outcome State Fault Refusal :=
  .next (s.writeV x (s.readV x ||| s.readV y))

/-- AND VX, VY (R146). -/
def execAndReg (x y : RegIdx) (s : State) : Host.Outcome State Fault Refusal :=
  .next (s.writeV x (s.readV x &&& s.readV y))

/-- XOR VX, VY (R147). -/
def execXorReg (x y : RegIdx) (s : State) : Host.Outcome State Fault Refusal :=
  .next (s.writeV x (s.readV x ^^^ s.readV y))

/-- ADD VX, VY with carry (R149). -/
def execAddReg (x y : RegIdx) (s : State) : Host.Outcome State Fault Refusal :=
  .next (s.writeFlagThenV (carryFlag (s.readV x) (s.readV y)) x (s.readV x + s.readV y))

/-- SUB VX, VY with the flag of `SUB_FLAG_MODE` (R150). -/
def execSubReg (x y : RegIdx) (s : State) : Host.Outcome State Fault Refusal :=
  .next (s.writeFlagThenV (subFlag s.subFlagMode (s.readV x) (s.readV y)) x (s.readV x - s.readV y))

/-- SHR VX, VY: the flag is bit 0 of the original `V[x]` (R151). -/
def execShr (x y : RegIdx) (s : State) : Host.Outcome State Fault Refusal :=
  .next (s.writeFlagThenV (lowBitFlag (s.readV x)) x (s.shiftOperand x y >>> 1))

/-- RSB VX, VY (R152). -/
def execRsb (x y : RegIdx) (s : State) : Host.Outcome State Fault Refusal :=
  .next (s.writeFlagThenV (noBorrowFlag (s.readV y) (s.readV x)) x (s.readV y - s.readV x))

/-- SHL VX, VY: the flag is bit 7 of the original `V[x]` (R153). -/
def execShl (x y : RegIdx) (s : State) : Host.Outcome State Fault Refusal :=
  .next (s.writeFlagThenV (highBitFlag (s.readV x)) x (s.shiftOperand x y <<< 1))

/-- RAND VX, NN: the byte offered with this CYCLE under the mask (R154). -/
def execRand (x : RegIdx) (nn : Byte) (s : State) : Host.Outcome State Fault Refusal :=
  .next (s.writeV x (s.cyc.rnd &&& nn))

end Sys2Proof.Machine
end

