-- ==== Sys2Proof/Machine/ControlFlow.lean ====
section
/-! DEFINITION. Control transfer (41_control_flow.md R120 to R128). On entry `PC = a + 2` (R26); there are no delay slots
(R128). No instruction here writes a general register. -/

namespace Sys2Proof.Machine

/-- Skip the next word when the condition holds (R26). -/
def State.skipIf (s : State) (c : Bool) : State := if c then s.skipNext else s

/-- RTS: pop into PC, or `StackUnderflow` (R120). -/
def execRts (s : State) : Host.Outcome State Fault Refusal :=
  match s.pop with
  | some (target, s') => .next (s'.setPc target)
  | none => .next (s.raise .stackUnderflow)

/-- JMP NNN (R121). -/
def execJmp (nnn : Addr12) (s : State) : Host.Outcome State Fault Refusal :=
  .next (s.setPc (zextAddress nnn))

/-- JSR NNN: push the address after the call, then jump, or `StackOverflow` (R122). -/
def execJsr (nnn : Addr12) (s : State) : Host.Outcome State Fault Refusal :=
  match s.push s.pc with
  | some s' => .next (s'.setPc (zextAddress nnn))
  | none => .next (s.raise .stackOverflow)

/-- SKEQ VX, NN (R123). -/
def execSkeqImm (x : RegIdx) (nn : Byte) (s : State) : Host.Outcome State Fault Refusal :=
  .next (s.skipIf (s.readV x == nn))

/-- SKNE VX, NN (R124). -/
def execSkneImm (x : RegIdx) (nn : Byte) (s : State) : Host.Outcome State Fault Refusal :=
  .next (s.skipIf (s.readV x != nn))

/-- SKEQ VX, VY (R125). -/
def execSkeqReg (x y : RegIdx) (s : State) : Host.Outcome State Fault Refusal :=
  .next (s.skipIf (s.readV x == s.readV y))

/-- SKNE VX, VY (R126). -/
def execSkneReg (x y : RegIdx) (s : State) : Host.Outcome State Fault Refusal :=
  .next (s.skipIf (s.readV x != s.readV y))

/-- JMI NNN: `NNN` plus the offset register, not masked (R127). -/
def execJmi (nnn : Addr12) (s : State) : Host.Outcome State Fault Refusal :=
  .next (s.setPc (zextAddress nnn + zextByte (s.jumpOffset nnn)))

end Sys2Proof.Machine
end

