-- ==== Sys2Proof/Machine/IndexRegister.lean ====
section
/-! DEFINITION. The index register instructions (43_index_register.md R170, R171). -/

namespace Sys2Proof.Machine

/-- MVI NNN (R170). -/
def execMvi (nnn : Addr12) (s : State) : Host.Outcome State Fault Refusal :=
  .next (s.writeIndex (zextAddress nnn))

/-- ADI VX: the sum of the old values, `VF` its overflow out of 12 bits (R171). -/
def execAdi (x : RegIdx) (s : State) : Host.Outcome State Fault Refusal :=
  .next ((s.writeFlag (indexOverflowFlag s.index (s.readV x))).writeIndex
    (BitVec.ofNat 16 (indexSum s.index (s.readV x))))

end Sys2Proof.Machine
end

