-- ==== Sys2Proof/Machine/KeypadTimer.lean ====
section
/-! DEFINITION. Keypad and timer instructions (45_keypad_timer_ops.md R200 to R205). None writes `VF` as a flag. -/

namespace Sys2Proof.Machine

/-- The key indices in scan order (R203). -/
def keyScanOrder : List Nat := [0, 1, 2, 3, 4, 5, 6, 7, 8, 9, 10, 11, 12, 13, 14, 15]

/-- The lowest pressed key (R203). -/
def State.firstPressed (s : State) : Option Nat := keyScanOrder.find? fun k => s.key k == some true

/-- SKPR VX: skip when the key is pressed, `InvalidKeyIndex` when `V[x] > 15` (R200). -/
def execSkpr (x : RegIdx) (s : State) : Host.Outcome State Fault Refusal :=
  match s.selectedKey x with
  | some pressed => .next (s.skipIf pressed)
  | none => .next (s.raise .invalidKeyIndex)

/-- SKUP VX: skip when the key is not pressed, `InvalidKeyIndex` when `V[x] > 15` (R201). -/
def execSkup (x : RegIdx) (s : State) : Host.Outcome State Fault Refusal :=
  match s.selectedKey x with
  | some pressed => .next (s.skipIf (!pressed))
  | none => .next (s.raise .invalidKeyIndex)

/-- GDELAY VX (R202). -/
def execGdelay (x : RegIdx) (s : State) : Host.Outcome State Fault Refusal :=
  .next (s.writeV x s.dt)

/-- KEY VX: the lowest pressed key, or back to the instruction itself when none is pressed (R203). -/
def execKey (x : RegIdx) (s : State) : Host.Outcome State Fault Refusal :=
  match s.firstPressed with
  | some k => .next (s.writeV x (BitVec.ofNat 8 k))
  | none => .next s.rewind

/-- SDELAY VX (R204). -/
def execSdelay (x : RegIdx) (s : State) : Host.Outcome State Fault Refusal :=
  .next (s.writeDt (s.readV x))

/-- SSOUND VX (R205). -/
def execSsound (x : RegIdx) (s : State) : Host.Outcome State Fault Refusal :=
  .next (s.writeSt (s.readV x))

end Sys2Proof.Machine
end

