-- ==== Sys2Proof/Machine/Sprite.lean ====
section
/-! DEFINITION. Display instructions (44_display.md R180 to R183): the sprite drawing, CLS and DRAW. -/

namespace Sys2Proof.Machine

/-- The display while a sprite is drawn, and whether a lit pixel has been erased so far (R182). -/
structure Canvas where
  disp : Display
  collided : Bool
  deriving DecidableEq, Repr

/-- Bit `7 - k` of a sprite byte: the pixel `k` columns right of the anchor (R181). -/
def spriteBit (b : Byte) (k : Nat) : Bool := b.getMsbD k

/-- Toggle one pixel by XOR and note a collision; a column outside the row is skipped, no wrap (R182). -/
def Canvas.toggle (cv : Canvas) (r : Fin 32) (c : Nat) : Canvas :=
  if h : c < 64 then
    { disp := cv.disp.set r.val (cv.disp[r.val].set c (!cv.disp[r.val][c]))
      collided := cv.collided || cv.disp[r.val][c] }
  else cv

/-- Draw the pixels `ks` of one sprite byte, from column `x0` on. -/
def Canvas.drawBits (cv : Canvas) (r : Fin 32) (x0 : Nat) (b : Byte) : List Nat → Canvas
  | [] => cv
  | k :: ks => (if spriteBit b k then cv.toggle r (x0 + k) else cv).drawBits r x0 b ks

/-- Draw one sprite row: the 8 pixels of its byte, left to right (R182). -/
def Canvas.drawRow (cv : Canvas) (r : Fin 32) (x0 : Nat) (b : Byte) : Canvas :=
  cv.drawBits r x0 b [0, 1, 2, 3, 4, 5, 6, 7]

/-- Draw sprite rows from sprite row `r` on, `n` rows to go: stop at the bottom edge before reading (R182; D14), and none
when a row that is drawn lies above 0xFFF. -/
def State.drawRows (s : State) (x0 y0 : Nat) : (n r : Nat) → Canvas → Option Canvas
  | 0, _, cv => some cv
  | n + 1, r, cv =>
    if h : y0 + r < 32 then
      match s.memRead (s.index.toNat + r) with
      | some b => s.drawRows x0 y0 n (r + 1) (cv.drawRow ⟨y0 + r, h⟩ x0 b)
      | none => none
    else some cv

/-- After `OutOfBoundsAccess` the contents of `Disp` and `VF` are free values (R182, R226; D13; log entry 5). -/
def State.scrambleDisplay (s : State) : State :=
  { s.writeV VF (Config.freeVF s.free) with disp := Config.freeDisplay s.free, free := s.free + 1 }

/-- CLS: every pixel false; the display has changed (R180, R36). -/
def execCls (s : State) : Host.Outcome State Fault Refusal :=
  .next { s with disp := Display.blank, drawFlag := true }

/-- DRAW VX, VY, N: the sprite at `I` drawn by XOR at the wrapped anchor, `VF` the collision, or `OutOfBoundsAccess`
(R182). The anchor is read before `VF` is written. -/
def execDraw (x y : RegIdx) (n : Nibble) (s : State) : Host.Outcome State Fault Refusal :=
  match s.drawRows (s.anchorColumn x) (s.anchorRow y) n.toNat 0 { disp := s.disp, collided := false } with
  | some cv => .next { s.writeFlag cv.collided with disp := cv.disp, drawFlag := true }
  | none => .next (s.scrambleDisplay.raise .outOfBoundsAccess)

end Sys2Proof.Machine
end

