-- ==== Sys2Proof/Machine/Dispatch.lean ====
section
/-! DEFINITION. The dispatch: one arm per instruction, each one call of its meaning. -/

namespace Sys2Proof.Machine

def exec (i : Instr) (s : State) : Host.Outcome State Fault Refusal :=
  match i with
  | .cls => Sys2Proof.Machine.execCls s
  | .rts => Sys2Proof.Machine.execRts s
  | .jmp nnn => Sys2Proof.Machine.execJmp nnn s
  | .jsr nnn => Sys2Proof.Machine.execJsr nnn s
  | .skeqImm x nn => Sys2Proof.Machine.execSkeqImm x nn s
  | .skneImm x nn => Sys2Proof.Machine.execSkneImm x nn s
  | .skeqReg x y => Sys2Proof.Machine.execSkeqReg x y s
  | .movImm x nn => Sys2Proof.Machine.execMovImm x nn s
  | .addImm x nn => Sys2Proof.Machine.execAddImm x nn s
  | .movReg x y => Sys2Proof.Machine.execMovReg x y s
  | .orReg x y => Sys2Proof.Machine.execOrReg x y s
  | .andReg x y => Sys2Proof.Machine.execAndReg x y s
  | .xorReg x y => Sys2Proof.Machine.execXorReg x y s
  | .addReg x y => Sys2Proof.Machine.execAddReg x y s
  | .subReg x y => Sys2Proof.Machine.execSubReg x y s
  | .shr x y => Sys2Proof.Machine.execShr x y s
  | .rsb x y => Sys2Proof.Machine.execRsb x y s
  | .shl x y => Sys2Proof.Machine.execShl x y s
  | .skneReg x y => Sys2Proof.Machine.execSkneReg x y s
  | .mvi nnn => Sys2Proof.Machine.execMvi nnn s
  | .jmi nnn => Sys2Proof.Machine.execJmi nnn s
  | .rand x nn => Sys2Proof.Machine.execRand x nn s
  | .draw x y n => Sys2Proof.Machine.execDraw x y n s
  | .skpr x => Sys2Proof.Machine.execSkpr x s
  | .skup x => Sys2Proof.Machine.execSkup x s
  | .gdelay x => Sys2Proof.Machine.execGdelay x s
  | .key x => Sys2Proof.Machine.execKey x s
  | .sdelay x => Sys2Proof.Machine.execSdelay x s
  | .ssound x => Sys2Proof.Machine.execSsound x s
  | .adi x => Sys2Proof.Machine.execAdi x s

end Sys2Proof.Machine
end

