-- ==== Sys2Proof/Machine/Interface.lean ====
section
/-! DEFINITION. The interface commands other than CYCLE (10_state.md R50 to R57, 20_memory.md R70, 60_exceptions.md R235),
the outputs (R56), the trace event (60_exceptions.md R241) and the boot sequence (70_reset_and_hazards.md R262). -/

namespace Sys2Proof.Machine

/-- The default arguments of CREATE: the default modes of R34 and the OPEN parameters at 0 (log entries 1 and 2). -/
def CreateParams.default : CreateParams where
  shiftMode := .vyCopy
  jumpMode := .v0
  subFlagMode := .corrected
  iInit := 0x000#12
  dtInit := 0x00#8
  stInit := 0x00#8
  memInit := []

/-- CREATE: every element of state at its value in R20 (R51, R260). `I_INIT` and the other OPEN parameters are arguments.
The model's own fields `free` and `drv` belong to the host and go on. -/
def State.create (s : State) (p : CreateParams) : State :=
  State.loadBytes
    { State.reset with
      index := p.iInit.setWidth 16
      dt := p.dtInit
      st := p.stInit
      shiftMode := p.shiftMode
      jumpMode := p.jumpMode
      subFlagMode := p.subFlagMode
      free := s.free
      drv := s.drv } 0 p.memInit

/-- A timer's next value: one less, with a floor of 0 (R31, R235). -/
def countDown (b : Byte) : Byte := if b.toNat > 0 then b - 1#8 else b

/-- TICK: both timers count down, nothing else changes, halted or not (R235; D24). -/
def State.tick (s : State) : State := { s with dt := countDown s.dt, st := countDown s.st }

/-- KEY_SET(`k`, `p`): a key index above 15 changes nothing (R54; D20). -/
def State.keySet (s : State) (k : Nat) (pressed : Bool) : State :=
  { s with keys := s.keys.setIfInBounds k pressed }

/-- LOAD(`offset`, `bytes`) (R55, R70; D21). -/
def State.load (s : State) (offset : Nat) (bytes : List Byte) : State := s.loadBytes offset bytes

/-- The outputs the host reads between commands (R56). -/
structure Outputs where
  disp : Display
  st : Byte
  drawFlag : Bool
  halted : Bool
  fault : Option FaultRecord
  deriving DecidableEq, Repr

/-- Reading the outputs (R56); it changes nothing. -/
def State.outputs (s : State) : Outputs :=
  { disp := s.disp, st := s.st, drawFlag := s.drawFlag, halted := s.halted, fault := s.fault }

/-- The optional trace event of the last CYCLE: address, word and result (R241; D28). -/
def State.traceEvent (s : State) : Word × Option Word × Option FailureKind := (s.cyc.addr, s.cyc.word, s.cyc.result)

/-- The boot sequence of R262: CREATE, LOAD the program at 0x200, LOAD the font at `FONT_BASE`. -/
def bootScript (p : CreateParams) (program : List Byte) (fontBase : Nat) (font : List Byte) : List Command :=
  [.create p, .load Config.programStart.toNat program, .load fontBase font]

end Sys2Proof.Machine
end

