-- ==== Sys2Proof/Machine/Cycle.lean ====
section
/-! DEFINITION. The fetch (20_memory.md R65), one CYCLE (60_exceptions.md R230), the issue of a command (10_state.md R50)
and the driver's choice of the next command (R227, R236; log entries 3 and 9). -/

namespace Sys2Proof.Machine

/-- The two bytes at `PC`, the lower address high; none when `PC > 0xFFE` (R65, R66). -/
def State.fetchWord (s : State) : Option Word :=
  if s.pc.toNat > 0xFFE then none
  else some (wordOfBytes (s.mem.read s.pc.toNat) (s.mem.read (s.pc.toNat + 1)))

/-- The start of a CYCLE: `draw_flag <- 0`, the address and the sampled byte noted, no word and no failure yet (R230). -/
def State.beginCycle (s : State) (rnd : Byte) : State :=
  { s with drawFlag := false, cyc := { addr := s.pc, word := none, rnd := rnd, result := none } }

/-- The fetch's effect: the word noted and `PC <- PC + 2` (R65). -/
def State.fetched (s : State) (w : Word) : State :=
  { s with pc := s.pc + 2#16, cyc := { s.cyc with word := some w } }

/-- The state an instruction of word `w` executes in: `PC = a + 2` (R26, R230). -/
def State.atExecute (s : State) (rnd : Byte) (w : Word) : State := (s.beginCycle rnd).fetched w

/-- A CYCLE of a halted core: nothing changes and the kind held in `fault` is returned (R225). -/
def State.haltedCycle (s : State) : State :=
  { s with cyc := { s.cyc with result := s.fault.map FaultRecord.kind } }

/-- CYCLE(`rnd`): halted check, fetch, decode, execute (R230), the checks in the order of R228. CLS and DRAW set
`draw_flag` in their meanings. -/
def cycle (rnd : Byte) (s : State) : Host.Outcome State Fault Refusal :=
  if s.halted then .next s.haltedCycle
  else
    match s.fetchWord with
    | none => .next ((s.beginCycle rnd).raise .outOfBoundsFetch)
    | some w =>
      match decodeWord w with
      | .ok i => exec i (s.atExecute rnd w)
      | .error _ => .next ((s.atExecute rnd w).raise .unimplementedOpcode)

/-- One command as one atomic transition (R50). -/
def issue (c : Command) (s : State) : Host.Outcome State Fault Refusal :=
  match c with
  | .create p => .next (s.create p)
  | .cycle rnd => cycle rnd s
  | .tick => .next s.tick
  | .keySet k p => .next (s.keySet k p)
  | .load offset bytes => .next (s.load offset bytes)

/-- Under `UNIMPL_POLICY = HALT` the host issues no further CYCLE after an `UnimplementedOpcode` report (R227). -/
def State.driverStopped (s : State) : Bool :=
  decide (s.drv.policy = .halt) && decide (s.fault.map FaultRecord.kind = some .unimplementedOpcode)

/-- Whether a command is a CYCLE. -/
def Command.isCycle : Command → Bool
  | .cycle _ => true
  | .create _ => false
  | .tick => false
  | .keySet _ _ => false
  | .load _ _ => false

/-- The next scripted command is taken off the script. -/
def State.takeScripted (s : State) (rest : List Command) : State := { s with drv := { s.drv with script := rest } }

/-- A free value has been drawn. -/
def State.drawFree (s : State) : State := { s with free := s.free + 1 }

/-- What the host does next: its next scripted command, else a CYCLE with a free byte. A CYCLE that the policy withholds
is not issued. -/
def State.driverTurn (s : State) : Option Command × State :=
  match s.drv.script with
  | c :: rest => if s.driverStopped && c.isCycle then (none, s.takeScripted rest) else (some c, s.takeScripted rest)
  | [] => if s.driverStopped then (none, s) else (some (.cycle (Config.freeRnd s.free)), s.drawFree)

/-- The state in which the next step issues an unscripted CYCLE that fetches inside memory: the core not halted, the
driver neither stopped nor scripted, and `PC` at 0x200 where it is not inside memory. -/
def State.readyToFetch (s : State) : State :=
  { s with
    pc := if s.pc.toNat > 0xFFE then Config.programStart else s.pc
    halted := false
    fault := if s.driverStopped then none else s.fault
    drv := { s.drv with script := [] } }

/-- `readyToFetch` with the word's two bytes at `PC`, so that the next step fetches and runs it. -/
def State.placeWord (s : State) (w : Word) : State :=
  s.readyToFetch.loadBytes s.readyToFetch.pc.toNat (bytesOfWord w)

end Sys2Proof.Machine
end

