-- ==== Sys2Proof/Machine/Step.lean ====
section
/-! DEFINITION. The step: the next command of the driver as one atomic transition (10_state.md R50). -/

namespace Sys2Proof.Machine

/-- One step: what the driver issues next, or nothing when its policy withholds it (R50, R227). -/
def step (s : State) : Host.Outcome State Fault Refusal :=
  match s.driverTurn with
  | (some c, s') => issue c s'
  | (none, s') => .next s'

/-- The state whose very next step fetches and runs the table word `w` (log entry 10). -/
def State.withFetchWord (s : State) (nbits w : Nat) : State := s.placeWord (tableWord nbits w)

end Sys2Proof.Machine
end

