-- ==== Sys2Proof/Safety.lean ====
section
/-! DEFINITION. The terms claims are stated in: what a transition may write and what it keeps (frames), the pixels a sprite
covers, the writers of general registers, and the invariant of runs. -/

namespace Sys2Proof

/-- CLS or DRAW (R36). -/
def Instr.writesDisplay (i : Instr) : Prop := i = .cls ∨ ∃ x y n, i = .draw x y n

/-- The general registers an instruction may write: its destination, and `VF` for the side-effect writers (R22, R23). -/
def Instr.generalWrites : Instr → List RegIdx
  | .movImm x _ => [x]
  | .addImm x _ => [x]
  | .movReg x _ => [x]
  | .orReg x _ => [x]
  | .andReg x _ => [x]
  | .xorReg x _ => [x]
  | .addReg x _ => [x, VF]
  | .subReg x _ => [x, VF]
  | .shr x _ => [x, VF]
  | .rsb x _ => [x, VF]
  | .shl x _ => [x, VF]
  | .rand x _ => [x]
  | .gdelay x => [x]
  | .key x => [x]
  | .draw _ _ _ => [VF]
  | .adi _ => [VF]
  | .cls => []
  | .rts => []
  | .jmp _ => []
  | .jsr _ => []
  | .skeqImm _ _ => []
  | .skneImm _ _ => []
  | .skeqReg _ _ => []
  | .skneReg _ _ => []
  | .mvi _ => []
  | .jmi _ => []
  | .skpr _ => []
  | .skup _ => []
  | .sdelay _ => []
  | .ssound _ => []

/-- The instructions that can fail at execute: R220's column "Raised by". -/
def Instr.canFail : Instr → Bool
  | .rts => true
  | .jsr _ => true
  | .draw _ _ _ => true
  | .skpr _ => true
  | .skup _ => true
  | .cls | .jmp _ | .skeqImm _ _ | .skneImm _ _ | .skeqReg _ _ | .skneReg _ _ | .movImm _ _ | .addImm _ _ => false
  | .movReg _ _ | .orReg _ _ | .andReg _ _ | .xorReg _ _ | .addReg _ _ | .subReg _ _ | .shr _ _ | .rsb _ _ => false
  | .shl _ _ | .mvi _ | .jmi _ | .rand _ _ | .gdelay _ | .key _ | .sdelay _ | .ssound _ | .adi _ => false

end Sys2Proof

namespace Sys2Proof.Machine

/-- What a transition may write: the general registers listed, and each part whose field is true. -/
structure Writes where
  v : List RegIdx := []
  index : Bool := false
  pc : Bool := false
  stack : Bool := false
  disp : Bool := false
  dt : Bool := false
  st : Bool := false
  keys : Bool := false
  mem : Bool := false
  drawFlag : Bool := false
  /-- `halted`, `fault` and the returned result. -/
  status : Bool := false
  /-- The address, word and random byte of the current CYCLE. -/
  cycInput : Bool := false
  free : Bool := false
  deriving DecidableEq, Repr

/-- Everything not listed in `w` is the same before (`s`) and after (`t`). Memory, pixels and keys are compared through
the model's reads of one byte, one pixel, one key. The configuration and the driver are always kept. -/
structure Frame (w : Writes) (s t : State) : Prop where
  v : ∀ r : RegIdx, r ∉ w.v → t.readV r = s.readV r
  index : w.index = false → t.index = s.index
  pc : w.pc = false → t.pc = s.pc
  stack : w.stack = false → t.stack = s.stack
  disp : w.disp = false → ∀ r c : Nat, t.pixel r c = s.pixel r c
  dt : w.dt = false → t.dt = s.dt
  st : w.st = false → t.st = s.st
  keys : w.keys = false → ∀ k : Nat, t.key k = s.key k
  mem : w.mem = false → ∀ a : Nat, t.memRead a = s.memRead a
  drawFlag : w.drawFlag = false → t.drawFlag = s.drawFlag
  halted : w.status = false → t.halted = s.halted
  fault : w.status = false → t.fault = s.fault
  result : w.status = false → t.cyc.result = s.cyc.result
  cycAddr : w.cycInput = false → t.cyc.addr = s.cyc.addr
  cycWord : w.cycInput = false → t.cyc.word = s.cyc.word
  cycRnd : w.cycInput = false → t.cyc.rnd = s.cyc.rnd
  free : w.free = false → t.free = s.free
  shiftMode : t.shiftMode = s.shiftMode
  jumpMode : t.jumpMode = s.jumpMode
  subFlagMode : t.subFlagMode = s.subFlagMode
  drv : t.drv = s.drv

/-- The failure a state records and returns: kind, the address and word of its CYCLE, the core halted when the kind is
fatal (R223, R224). -/
def Reports (k : FailureKind) (s t : State) : Prop :=
  t.fault = some { kind := k, addr := s.cyc.addr, word := s.cyc.word } ∧
  t.cyc.result = some k ∧ t.halted = (s.halted || k.fatal)

/-- The sprite pixel at display row `row` and column `col`: the byte of that row at `I + (row - y0)`, its bit 7 at the
anchor column (R181), the anchor wrapped (R182). -/
def State.spritePixel (s : State) (x y : RegIdx) (n : Nibble) (row col : Nat) : Bool :=
  let x0 := (s.readV x).toNat % 64
  let y0 := (s.readV y).toNat % 32
  decide (y0 ≤ row ∧ row < y0 + n.toNat ∧ x0 ≤ col ∧ col < x0 + 8) &&
    (s.mem.read (s.index.toNat + (row - y0))).getLsbD (7 - (col - x0))

/-- Every sprite row that DRAW draws (those above the bottom edge) lies inside memory. -/
def State.spriteReadable (s : State) (y : RegIdx) (n : Nibble) : Prop :=
  ∀ r : Nat, r < n.toNat → (s.readV y).toNat % 32 + r < 32 → s.index.toNat + r ≤ 0xFFF

/-- The same state with another random byte offered to the current CYCLE (R52). -/
def State.withRnd (s : State) (rnd : Byte) : State := { s with cyc := { s.cyc with rnd := rnd } }

/-- The state in which the instruction fetched by a CYCLE executes, field by field: `PC = a + 2`, `draw_flag` cleared, the
CYCLE's address, word and random byte noted (R26, R230). -/
def State.entering (s : State) (rnd : Byte) (w : Word) : State :=
  { s with
    pc := s.pc + 2#16
    drawFlag := false
    cyc := { addr := s.pc, word := some w, rnd := rnd, result := none } }

/-- The invariant of runs: what holds at CREATE and after every step. -/
structure State.Inv (s : State) : Prop where
  /-- Memory keeps its canonical form (20_memory.md R60). -/
  mem_wf : s.mem.wf = true
  /-- `I[15:12] = 0` (R25). -/
  index_bound : s.index.toNat ≤ 0xFFF
  /-- `PC` lies in 0x000..0x10FE (R27). -/
  pc_bound : s.pc.toNat ≤ 0x10FE
  /-- The stack holds at most 16 entries (R28). -/
  stack_depth : s.stack.length ≤ 16
  /-- Every entry was pushed by a JSR, so it lies in 0x002..0x1000 (R120). -/
  stack_entries : ∀ w ∈ s.stack, 2 ≤ w.toNat ∧ w.toNat ≤ 0x1000
  /-- `halted` is 1 exactly when the last failure was fatal (R35, R224). -/
  halted_iff : s.halted = true ↔ ∃ f, s.fault = some f ∧ f.kind.fatal = true
  /-- No step records `InvalidRegisterIndex` (R221). -/
  fault_kind : ∀ f, s.fault = some f → f.kind ≠ .invalidRegisterIndex
  /-- The word is absent exactly for a failed fetch (R35). -/
  fault_word : ∀ f, s.fault = some f → (f.word = none ↔ f.kind = .outOfBoundsFetch)
  /-- A halted core's last result is the kind held in `fault` (R225). -/
  halted_result : s.halted = true → s.cyc.result = s.fault.map FaultRecord.kind

end Sys2Proof.Machine
end

