-- ==== Sys2Proof/Certificates/Slice0/Obligations.lean ====
section
/-! DEFINITION. The statements for the provers. Each docstring names the rule of spec/ it formalises. -/

open Sys2Proof Sys2Proof.Machine

/-! ## Encoding -/

/-- 30_encoding.md R91, R93, R100: decoding the bytes of a well-formed instruction gives it back, and hands back the
bytes that follow; every operand at every value. -/
def Obligations.DecodeUndoesEncode : Prop :=
  ∀ (i : Instr) (rest : List Byte), i.wellFormed = true → decode (encodeBytes i ++ rest) = .ok (i, rest)

/-- R91, R100: bytes that decode to an instruction are exactly that instruction's bytes and the rest, so each word has
one meaning. -/
def Obligations.EncodeUndoesDecode : Prop :=
  ∀ (bytes rest : List Byte) (i : Instr), decode bytes = .ok (i, rest) → bytes = encodeBytes i ++ rest

/-- R100, R101, R102 (strict matching: the spec's own choice D12): no two rows of the opcode map select the same word;
a decoded instruction's row selects its word; a word is rejected by name exactly when no row selects it. -/
def Obligations.DecoderFollowsOpcodeMap : Prop :=
  (∀ (w : Word) (r r' : Row), r ∈ opcodeTable → r' ∈ opcodeTable → r.selects w = true → r'.selects w = true → r = r') ∧
  (∀ (w : Word) (i : Instr), decodeWord w = .ok i → i.row ∈ opcodeTable ∧ i.row.selects w = true) ∧
  (∀ w : Word, decodeWord w = .error (.unimplementedOpcode w) ↔ ∀ r ∈ opcodeTable, r.selects w = false)

/-- Sanity: the words 30_encoding.md R94 takes from the source, and one word of other families (95_test_vectors.md). -/
def Obligations.SourceWordsDecode : Prop :=
  decode [0x60#8, 0x05#8] = .ok (.movImm 0x0#4 0x05#8, []) ∧
  decode [0x60#8, 0x0A#8] = .ok (.movImm 0x0#4 0x0A#8, []) ∧
  decode [0x60#8, 0x06#8] = .ok (.movImm 0x0#4 0x06#8, []) ∧
  decode [0x00#8, 0xEE#8] = .ok (.rts, []) ∧
  decode [0xA2#8, 0x00#8] = .ok (.mvi 0x200#12, []) ∧
  decode [0xD0#8, 0x05#8] = .ok (.draw 0x0#4 0x0#4 0x5#4, []) ∧
  decode [0x8A#8, 0xB4#8] = .ok (.addReg 0xA#4 0xB#4, []) ∧
  decode [0x12#8, 0x34#8] = .ok (.jmp 0x234#12, []) ∧
  decode [0xE0#8, 0x9E#8] = .ok (.skpr 0x0#4, []) ∧
  decode [0xF3#8, 0x18#8] = .ok (.ssound 0x3#4, [])

/-! ## Fetch, cycle, step -/

/-- R65, R230 (one atomic CYCLE and `rnd` as its input: the spec's own choices D2, D25; the driver: log entries 3 and
4): when the two bytes at `PC` decode to `i`, a CYCLE of a core that is not halted is `exec i` with `PC = a + 2` and
`draw_flag` cleared (the flag: D22); a step is that CYCLE, with the scripted random byte or, with no script, a free
one. -/
def Obligations.StepRunsDecodedInstruction : Prop :=
  ∀ (s : State) (hi lo : Byte) (i : Instr), s.halted = false → s.memRead s.pc.toNat = some hi →
    s.memRead (s.pc.toNat + 1) = some lo → decode [hi, lo] = .ok (i, []) →
    (∀ rnd : Byte, cycle rnd s = exec i (s.entering rnd (wordOfBytes hi lo))) ∧
    (s.drv.script = [] → s.driverStopped = false →
      step s = exec i ({ s with free := s.free + 1 }.entering (Config.freeRnd s.free) (wordOfBytes hi lo))) ∧
    (∀ (rnd : Byte) (rest : List Command), s.drv.script = .cycle rnd :: rest → s.driverStopped = false →
      step s = exec i ({ s with drv := { s.drv with script := rest } }.entering rnd (wordOfBytes hi lo)))

/-- R50, R227 (the commands: D1; the policy: D19; the driver in the state: log entries 3, 4 and 9): a step issues the
driver's next command as one transition, with an empty script a CYCLE with a free byte. Under `UNIMPL_POLICY = HALT`,
after an `UnimplementedOpcode` report, a CYCLE is not issued and every other command still is: a scripted CYCLE is only
taken off the script, and with an empty script the step changes nothing. -/
def Obligations.StepIssuesScriptedCommand : Prop :=
  ∀ s : State,
    (∀ (c : Command) (rest : List Command), s.drv.script = c :: rest →
      ((s.drv.policy = .halt ∧ s.fault.map FaultRecord.kind = some .unimplementedOpcode ∧ c.isCycle = true) →
        step s = .next { s with drv := { s.drv with script := rest } }) ∧
      (¬ (s.drv.policy = .halt ∧ s.fault.map FaultRecord.kind = some .unimplementedOpcode ∧ c.isCycle = true) →
        step s = issue c { s with drv := { s.drv with script := rest } })) ∧
    (s.drv.script = [] →
      ((s.drv.policy = .halt ∧ s.fault.map FaultRecord.kind = some .unimplementedOpcode) → step s = .next s) ∧
      (¬ (s.drv.policy = .halt ∧ s.fault.map FaultRecord.kind = some .unimplementedOpcode) →
        step s = issue (.cycle (Config.freeRnd s.free)) { s with free := s.free + 1 }))

/-- 20_memory.md R73 (derived there; LOAD between two commands: D21): bytes written by LOAD at `PC` are what the next
CYCLE fetches and executes. -/
def Obligations.LoadedWordIsFetched : Prop :=
  ∀ (rnd hi lo : Byte) (i : Instr) (s : State), s.mem.wf = true → s.halted = false → s.pc.toNat ≤ 0xFFE →
    decodeWord (wordOfBytes hi lo) = .ok i →
    ∃ t, issue (.load s.pc.toNat [hi, lo]) s = .next t ∧
      cycle rnd t = exec i (t.entering rnd (wordOfBytes hi lo))

/-- R65, R224, R226 (D16 to D18): a fetch above 0xFFE records `OutOfBoundsFetch` with no word and halts the core. The
CYCLE has cleared `draw_flag` (R230, R36: the spec's own choice D22, log entry 19); `PC` and everything else is kept. -/
def Obligations.FetchBeyondMemoryHalts : Prop :=
  ∀ (rnd : Byte) (s : State), s.halted = false → 0xFFE < s.pc.toNat →
    ∃ t, cycle rnd s = .next t ∧
      t.fault = some { kind := .outOfBoundsFetch, addr := s.pc, word := none } ∧ t.halted = true ∧
      t.cyc.result = some .outOfBoundsFetch ∧ t.drawFlag = false ∧
      Frame { status := true, drawFlag := true, cycInput := true } s t

/-- R105, R226, R227 (D16, D18, D19): a word that no row of the opcode map selects records `UnimplementedOpcode` and
does not halt the core. The CYCLE has cleared `draw_flag` (R230, R36: the spec's own choice D22, log entry 19) and the
fetch set `PC <- a + 2`; everything else is kept. -/
def Obligations.UnmatchedWordReported : Prop :=
  ∀ (rnd : Byte) (s : State) (w : Word), s.halted = false → s.fetchWord = some w →
    (∀ r ∈ opcodeTable, r.selects w = false) →
    ∃ t, cycle rnd s = .next t ∧
      t.fault = some { kind := .unimplementedOpcode, addr := s.pc, word := some w } ∧ t.halted = false ∧
      t.cyc.result = some .unimplementedOpcode ∧ t.drawFlag = false ∧ t.pc = s.pc + 2#16 ∧
      Frame { status := true, drawFlag := true, pc := true, cycInput := true } s t

/-- R225 (D17): a CYCLE of a halted core returns the kind held in `fault` and changes nothing; in a state that meets the
invariant the whole state, the model's own fields included, stays as it was. -/
def Obligations.HaltedCycleChangesNothing : Prop :=
  ∀ (rnd : Byte) (s : State), s.halted = true →
    (∃ t, cycle rnd s = .next t ∧ t.cyc.result = s.fault.map FaultRecord.kind ∧ t.halted = true ∧ t.fault = s.fault ∧
      Frame { status := true } s t) ∧
    (s.Inv → cycle rnd s = .next s)

/-- R225, R35 (D17): only CREATE leaves the halted state, and until then `fault` is kept. -/
def Obligations.OnlyCreateLeavesHalted : Prop :=
  ∀ s t : State, s.halted = true → (∀ p rest, s.drv.script ≠ .create p :: rest) → step s = .next t →
    t.halted = true ∧ t.fault = s.fault

/-- R223: every command yields success or one typed failure; the failure is recorded in the state (D16), so no step
stops the machine (log entry 6). -/
def Obligations.EveryStepAnswersNext : Prop :=
  ∀ s : State, ∃ t, step s = .next t

/-- R223, R224, R226, R228 (D16 to D18): a CYCLE of a core that is not halted either returns OK, with `fault` kept, or
one failure kind with its address and word recorded, halted exactly when the kind is fatal, `PC = a` after a failed
fetch and `a + 2` after every other failure. -/
def Obligations.CycleReportsOneResult : Prop :=
  ∀ (rnd : Byte) (s t : State), s.halted = false → cycle rnd s = .next t →
    (t.cyc.result = none ∧ t.fault = s.fault ∧ t.halted = false) ∨
    (t.cyc.result = some .outOfBoundsFetch ∧ t.halted = true ∧ t.pc = s.pc ∧
      t.fault = some { kind := .outOfBoundsFetch, addr := s.pc, word := none }) ∨
    (∃ k w, k ≠ .outOfBoundsFetch ∧ s.fetchWord = some w ∧ t.cyc.result = some k ∧ t.halted = k.fatal ∧
      t.pc = s.pc + 2#16 ∧ t.fault = some { kind := k, addr := s.pc, word := some w })

/-! ## Whole-machine rules -/

/-- R222 (derived there): an instruction outside R220's column "Raised by" always completes: no failure is recorded. -/
def Obligations.OtherInstructionsNeverFail : Prop :=
  ∀ (i : Instr) (s : State), i.canFail = false →
    ∃ t, exec i s = .next t ∧ t.fault = s.fault ∧ t.halted = s.halted ∧ t.cyc.result = s.cyc.result

/-- R22, R23: the writers of the general registers. An instruction writes its destination and, for the side-effect
writers, `VF`; TICK, KEY_SET and LOAD write none. (CREATE sets every register, R51.) -/
def Obligations.GeneralRegisterWriters : Prop :=
  (∀ (i : Instr) (s t : State), exec i s = .next t → ∀ r : RegIdx, r ∉ i.generalWrites → t.readV r = s.readV r) ∧
  (∀ (s t : State) (r : RegIdx), issue .tick s = .next t → t.readV r = s.readV r) ∧
  (∀ (k : Nat) (p : Bool) (s t : State) (r : RegIdx), issue (.keySet k p) s = .next t → t.readV r = s.readV r) ∧
  (∀ (off : Nat) (bytes : List Byte) (s t : State) (r : RegIdx),
    issue (.load off bytes) s = .next t → t.readV r = s.readV r)

/-- R62, R64, R68 (the commands: D1): memory is written only by LOAD (and set by CREATE); no instruction writes it. -/
def Obligations.MemoryWrittenOnlyByLoad : Prop :=
  ∀ s t : State, (∀ off bytes rest, s.drv.script ≠ .load off bytes :: rest) →
    (∀ p rest, s.drv.script ≠ .create p :: rest) → step s = .next t → ∀ a : Nat, t.memRead a = s.memRead a

/-- R25, R28, R30, R31, R32, R235, R238 (the commands: D1): the display is written only by CLS and DRAW, `DT` only by
SDELAY and TICK, `ST` only by SSOUND and TICK, `I` only by MVI and ADI, the stack only by JSR and RTS, and the keys only
by KEY_SET. LOAD writes none of them. (CREATE sets them all, R51; what a CYCLE does without running an instruction:
`FetchBeyondMemoryHalts`, `UnmatchedWordReported`, `HaltedCycleChangesNothing`.) -/
def Obligations.DeviceAndIndexWriters : Prop :=
  (∀ (i : Instr) (s t : State), exec i s = .next t →
    (¬ i.writesDisplay → ∀ r c : Nat, t.pixel r c = s.pixel r c) ∧
    ((∀ x, i ≠ .sdelay x) → t.dt = s.dt) ∧
    ((∀ x, i ≠ .ssound x) → t.st = s.st) ∧
    ((∀ nnn, i ≠ .mvi nnn) → (∀ x, i ≠ .adi x) → t.index = s.index) ∧
    (i ≠ .rts → (∀ nnn, i ≠ .jsr nnn) → t.stack = s.stack) ∧
    (∀ k : Nat, t.key k = s.key k)) ∧
  (∀ s t : State, issue .tick s = .next t →
    (∀ r c : Nat, t.pixel r c = s.pixel r c) ∧ t.index = s.index ∧ t.stack = s.stack ∧
    (∀ k : Nat, t.key k = s.key k)) ∧
  (∀ (k : Nat) (p : Bool) (s t : State), issue (.keySet k p) s = .next t →
    (∀ r c : Nat, t.pixel r c = s.pixel r c) ∧ t.dt = s.dt ∧ t.st = s.st ∧ t.index = s.index ∧ t.stack = s.stack) ∧
  (∀ (off : Nat) (bytes : List Byte) (s t : State), issue (.load off bytes) s = .next t →
    (∀ r c : Nat, t.pixel r c = s.pixel r c) ∧ t.dt = s.dt ∧ t.st = s.st ∧ t.index = s.index ∧ t.stack = s.stack ∧
    (∀ k : Nat, t.key k = s.key k))

/-- R34, R261 (D8, D9, D10): the configuration is fixed at CREATE: no other step changes it. -/
def Obligations.ConfigurationFixedAtCreate : Prop :=
  ∀ s t : State, (∀ p rest, s.drv.script ≠ .create p :: rest) → step s = .next t →
    t.shiftMode = s.shiftMode ∧ t.jumpMode = s.jumpMode ∧ t.subFlagMode = s.subFlagMode

/-- R52 (D25): only RAND uses `rnd`: any other instruction does the same whatever byte the CYCLE was offered. -/
def Obligations.OnlyRandUsesRandomByte : Prop :=
  ∀ (i : Instr) (s t : State) (rnd : Byte), (∀ x nn, i ≠ .rand x nn) → exec i s = .next t →
    exec i (s.withRnd rnd) = .next (t.withRnd rnd)

/-- R36 (D22): after a CYCLE of a core that is not halted, `draw_flag` is 1 exactly when the CYCLE completed CLS or DRAW
without failure. -/
def Obligations.DrawFlagMarksDisplayInstructions : Prop :=
  ∀ (rnd : Byte) (s t : State), s.halted = false → cycle rnd s = .next t →
    (t.drawFlag = true ↔
      t.cyc.result = none ∧ ∃ w i, s.fetchWord = some w ∧ decodeWord w = .ok i ∧ i.writesDisplay)

/-! ## Register moves, logic and arithmetic -/

/-- 42_register_alu.md R142. -/
def Obligations.MoveImmediateSetsRegister : Prop :=
  ∀ (x : RegIdx) (nn : Byte) (s : State), decodeWord (ofFamilyByte 0x6#4 x nn) = .ok (.movImm x nn) ∧
    ∃ t, exec (.movImm x nn) s = .next t ∧ t.readV x = nn ∧ Frame { v := [x] } s t

/-- R143: the sum's low 8 bits; `VF` keeps its value unless it is the destination. -/
def Obligations.AddImmediateKeepsFlag : Prop :=
  ∀ (x : RegIdx) (nn : Byte) (s : State), decodeWord (ofFamilyByte 0x7#4 x nn) = .ok (.addImm x nn) ∧
    ∃ t, exec (.addImm x nn) s = .next t ∧ (t.readV x).toNat = ((s.readV x).toNat + nn.toNat) % 256 ∧
      Frame { v := [x] } s t

/-- R144, R145, R146, R147: the copied or combined value; `VF` keeps its value unless it is the destination. -/
def Obligations.MoveAndLogicSetDestination : Prop :=
  ∀ (x y : RegIdx) (s : State),
    (decodeWord (ofNibbles 0x8#4 x y 0x0#4) = .ok (.movReg x y) ∧
      ∃ t, exec (.movReg x y) s = .next t ∧ t.readV x = s.readV y ∧ Frame { v := [x] } s t) ∧
    (decodeWord (ofNibbles 0x8#4 x y 0x1#4) = .ok (.orReg x y) ∧
      ∃ t, exec (.orReg x y) s = .next t ∧ t.readV x = s.readV x ||| s.readV y ∧ Frame { v := [x] } s t) ∧
    (decodeWord (ofNibbles 0x8#4 x y 0x2#4) = .ok (.andReg x y) ∧
      ∃ t, exec (.andReg x y) s = .next t ∧ t.readV x = s.readV x &&& s.readV y ∧ Frame { v := [x] } s t) ∧
    (decodeWord (ofNibbles 0x8#4 x y 0x3#4) = .ok (.xorReg x y) ∧
      ∃ t, exec (.xorReg x y) s = .next t ∧ t.readV x = s.readV x ^^^ s.readV y ∧ Frame { v := [x] } s t)

/-- R149, and for `x = 0xF`, where only the sum survives, R140 (the spec's own choice D6): the sum modulo 256, `VF` 1
iff the exact sum exceeds 255. -/
def Obligations.AddRegistersSetsCarry : Prop :=
  ∀ (x y : RegIdx) (s : State), decodeWord (ofNibbles 0x8#4 x y 0x4#4) = .ok (.addReg x y) ∧
    ∃ t, exec (.addReg x y) s = .next t ∧
      (t.readV x).toNat = ((s.readV x).toNat + (s.readV y).toNat) % 256 ∧
      (x ≠ VF → (t.readV VF).toNat = if 255 < (s.readV x).toNat + (s.readV y).toNat then 1 else 0) ∧
      Frame { v := [x, VF] } s t

/-- R150 (modes: D10; `x = 0xF`: D6): the difference modulo 256; `VF` 1 iff no borrow, and 0 in `LEGACY_ZERO` mode. -/
def Obligations.SubtractSetsNoBorrow : Prop :=
  ∀ (x y : RegIdx) (s : State), decodeWord (ofNibbles 0x8#4 x y 0x5#4) = .ok (.subReg x y) ∧
    ∃ t, exec (.subReg x y) s = .next t ∧
      (t.readV x).toNat = ((s.readV x).toNat + 256 - (s.readV y).toNat) % 256 ∧
      (x ≠ VF → s.subFlagMode = .corrected →
        (t.readV VF).toNat = if (s.readV x).toNat < (s.readV y).toNat then 0 else 1) ∧
      (x ≠ VF → s.subFlagMode = .legacyZero → (t.readV VF).toNat = 0) ∧
      Frame { v := [x, VF] } s t

/-- R152 (`x = 0xF`: D6; no `SUB_FLAG_MODE`: D10): the reverse difference modulo 256; `VF` 1 iff no borrow, in every
mode. -/
def Obligations.ReverseSubtractSetsNoBorrow : Prop :=
  ∀ (x y : RegIdx) (s : State), decodeWord (ofNibbles 0x8#4 x y 0x7#4) = .ok (.rsb x y) ∧
    ∃ t, exec (.rsb x y) s = .next t ∧
      (t.readV x).toNat = ((s.readV y).toNat + 256 - (s.readV x).toNat) % 256 ∧
      (x ≠ VF → (t.readV VF).toNat = if (s.readV y).toNat < (s.readV x).toNat then 0 else 1) ∧
      Frame { v := [x, VF] } s t

/-- R151 (D7, D8; `x = 0xF`: D6): half of `V[y]`, or of `V[x]` in `IN_PLACE` mode; `VF` bit 0 of the original `V[x]` in
both. -/
def Obligations.ShiftRightHalves : Prop :=
  ∀ (x y : RegIdx) (s : State), decodeWord (ofNibbles 0x8#4 x y 0x6#4) = .ok (.shr x y) ∧
    ∃ t, exec (.shr x y) s = .next t ∧
      (s.shiftMode = .vyCopy → (t.readV x).toNat = (s.readV y).toNat / 2) ∧
      (s.shiftMode = .inPlace → (t.readV x).toNat = (s.readV x).toNat / 2) ∧
      (x ≠ VF → (t.readV VF).toNat = (s.readV x).toNat % 2) ∧
      Frame { v := [x, VF] } s t

/-- R153 (D7, D8; `x = 0xF`: D6): twice `V[y]` modulo 256, or twice `V[x]` in `IN_PLACE` mode; `VF` bit 7 of the
original `V[x]` in both. -/
def Obligations.ShiftLeftDoubles : Prop :=
  ∀ (x y : RegIdx) (s : State), decodeWord (ofNibbles 0x8#4 x y 0xE#4) = .ok (.shl x y) ∧
    ∃ t, exec (.shl x y) s = .next t ∧
      (s.shiftMode = .vyCopy → (t.readV x).toNat = 2 * (s.readV y).toNat % 256) ∧
      (s.shiftMode = .inPlace → (t.readV x).toNat = 2 * (s.readV x).toNat % 256) ∧
      (x ≠ VF → (t.readV VF).toNat = (s.readV x).toNat / 128) ∧
      Frame { v := [x, VF] } s t

/-- R150's corner case (90_conflicts.md C10): SUB then ADD with the same registers restores `V[x]` when `x ≠ y` and
`y ≠ 0xF`, the case `x = 0xF` among them. -/
def Obligations.SubtractThenAddRestores : Prop :=
  ∀ (x y : RegIdx) (s : State), x ≠ y → y ≠ VF →
    ∃ t u, exec (.subReg x y) s = .next t ∧ exec (.addReg x y) t = .next u ∧ u.readV x = s.readV x

/-- R154 (D25): the byte offered with the CYCLE, whatever it is, under the mask. -/
def Obligations.RandomByteMasked : Prop :=
  ∀ (x : RegIdx) (nn : Byte) (s : State), decodeWord (ofFamilyByte 0xC#4 x nn) = .ok (.rand x nn) ∧
    ∃ t, exec (.rand x nn) s = .next t ∧ t.readV x = s.cyc.rnd &&& nn ∧ Frame { v := [x] } s t

/-! ## Index register -/

/-- 43_index_register.md R170. -/
def Obligations.SetIndexStoresAddress : Prop :=
  ∀ (nnn : Addr12) (s : State), decodeWord (ofFamilyAddress 0xA#4 nnn) = .ok (.mvi nnn) ∧
    ∃ t, exec (.mvi nnn) s = .next t ∧ t.index.toNat = nnn.toNat ∧ Frame { index := true } s t

/-- R171: the sum modulo 4096 of the values before the instruction, `VF` 1 iff it exceeds 0xFFF, for `x = 0xF` too. -/
def Obligations.AddToIndexSetsOverflow : Prop :=
  ∀ (x : RegIdx) (s : State), decodeWord (ofFamilyByte 0xF#4 x 0x1E#8) = .ok (.adi x) ∧
    ∃ t, exec (.adi x) s = .next t ∧ t.index.toNat = (s.index.toNat + (s.readV x).toNat) % 4096 ∧
      (t.readV VF).toNat = (if 0xFFF < s.index.toNat + (s.readV x).toNat then 1 else 0) ∧
      Frame { v := [VF], index := true } s t

/-! ## Control transfer -/

/-- 41_control_flow.md R121. -/
def Obligations.JumpSetsPc : Prop :=
  ∀ (nnn : Addr12) (s : State), decodeWord (ofFamilyAddress 0x1#4 nnn) = .ok (.jmp nnn) ∧
    ∃ t, exec (.jmp nnn) s = .next t ∧ t.pc.toNat = nnn.toNat ∧ Frame { pc := true } s t

/-- R122, and R29 for the slots (derived there): JSR pushes the address after the call into slot `SP` and jumps; with 16
entries it records `StackOverflow` (the record and the halt: D16, D17) and changes neither stack nor `PC`. -/
def Obligations.CallPushesReturnAddress : Prop :=
  ∀ (nnn : Addr12) (s : State), decodeWord (ofFamilyAddress 0x2#4 nnn) = .ok (.jsr nnn) ∧
    (s.stack.length < 16 → ∃ t, exec (.jsr nnn) s = .next t ∧ t.stack = s.pc :: s.stack ∧ t.sp = s.sp + 1 ∧
      t.slot s.sp = some s.pc ∧ t.pc.toNat = nnn.toNat ∧ Frame { pc := true, stack := true } s t) ∧
    (16 ≤ s.stack.length → ∃ t, exec (.jsr nnn) s = .next t ∧ Reports .stackOverflow s t ∧
      Frame { status := true } s t)

/-- R120: RTS pops the newest entry into `PC`; on an empty stack it records `StackUnderflow` (the record
and the halt: D16, D17) and changes neither. -/
def Obligations.ReturnPopsIntoPc : Prop :=
  decodeWord 0x00EE#16 = .ok .rts ∧
  (∀ (w : Word) (below : List Word) (s : State), s.stack = w :: below →
    ∃ t, exec .rts s = .next t ∧ t.pc = w ∧ t.stack = below ∧ Frame { pc := true, stack := true } s t) ∧
  (∀ s : State, s.stack = [] → ∃ t, exec .rts s = .next t ∧ Reports .stackUnderflow s t ∧ Frame { status := true } s t)

/-- R122's corner case: JSR then RTS lands right after the call, with the stack as before. -/
def Obligations.CallThenReturnLandsAfterCall : Prop :=
  ∀ (nnn : Addr12) (s : State), s.stack.length < 16 →
    ∃ t u, exec (.jsr nnn) s = .next t ∧ exec .rts t = .next u ∧ u.pc = s.pc ∧ u.stack = s.stack

/-- R123, R124, R125, R126: a skip adds 2 to `PC` exactly when its condition holds, and changes nothing else. -/
def Obligations.SkipsAddTwoOnCondition : Prop :=
  ∀ (x y : RegIdx) (nn : Byte) (s : State),
    (decodeWord (ofFamilyByte 0x3#4 x nn) = .ok (.skeqImm x nn) ∧
      ∃ t, exec (.skeqImm x nn) s = .next t ∧ t.pc = (if s.readV x = nn then s.pc + 2#16 else s.pc) ∧
        Frame { pc := true } s t) ∧
    (decodeWord (ofFamilyByte 0x4#4 x nn) = .ok (.skneImm x nn) ∧
      ∃ t, exec (.skneImm x nn) s = .next t ∧ t.pc = (if s.readV x = nn then s.pc else s.pc + 2#16) ∧
        Frame { pc := true } s t) ∧
    (decodeWord (ofNibbles 0x5#4 x y 0x0#4) = .ok (.skeqReg x y) ∧
      ∃ t, exec (.skeqReg x y) s = .next t ∧ t.pc = (if s.readV x = s.readV y then s.pc + 2#16 else s.pc) ∧
        Frame { pc := true } s t) ∧
    (decodeWord (ofNibbles 0x9#4 x y 0x0#4) = .ok (.skneReg x y) ∧
      ∃ t, exec (.skneReg x y) s = .next t ∧ t.pc = (if s.readV x = s.readV y then s.pc else s.pc + 2#16) ∧
        Frame { pc := true } s t)

/-- R127 (modes: D9; no mask: D11): `NNN` plus `V0`, or plus the register of the leading nibble of `NNN` in mode `VX`;
the target is not masked. -/
def Obligations.JumpWithOffsetAdds : Prop :=
  ∀ (nnn : Addr12) (s : State), decodeWord (ofFamilyAddress 0xB#4 nnn) = .ok (.jmi nnn) ∧
    ∃ t, exec (.jmi nnn) s = .next t ∧
      (s.jumpMode = .v0 → t.pc.toNat = nnn.toNat + (s.readV 0x0#4).toNat) ∧
      (s.jumpMode = .vx → t.pc.toNat = nnn.toNat + (s.readV (BitVec.ofNat 4 (nnn.toNat / 256))).toNat) ∧
      Frame { pc := true } s t

/-! ## Display -/

/-- 44_display.md R180: every pixel false, `draw_flag` set (the flag: D22), nothing else. -/
def Obligations.ClearScreenBlanks : Prop :=
  decodeWord 0x00E0#16 = .ok .cls ∧
  ∀ s : State, ∃ t, exec .cls s = .next t ∧ (∀ r c : Nat, r < 32 → c < 64 → t.pixel r c = some false) ∧
    t.drawFlag = true ∧ Frame { disp := true, drawFlag := true } s t

/-- R181, R182 (rows below the bottom edge are not read: D14): with the drawn rows inside memory, every pixel of the
display is XORed with the sprite's pixel there, `VF` is 1 exactly when a lit pixel is erased, and `draw_flag` is set
(the flag: D22). -/
def Obligations.DrawXorsSprite : Prop :=
  ∀ (x y : RegIdx) (n : Nibble) (s : State), decodeWord (ofNibbles 0xD#4 x y n) = .ok (.draw x y n) ∧
    (s.spriteReadable y n →
      ∃ t, exec (.draw x y n) s = .next t ∧
        (∀ r c : Nat, t.pixel r c = (s.pixel r c).map fun p => p ^^ s.spritePixel x y n r c) ∧
        ((∃ r c : Nat, s.pixel r c = some true ∧ s.spritePixel x y n r c = true) → t.readV VF = 0x01#8) ∧
        ((¬ ∃ r c : Nat, s.pixel r c = some true ∧ s.spritePixel x y n r c = true) → t.readV VF = 0x00#8) ∧
        t.drawFlag = true ∧ Frame { v := [VF], disp := true, drawFlag := true } s t)

/-- R182, R226 (D13, D14): when a row that is drawn lies above 0xFFF, DRAW records `OutOfBoundsAccess`; the contents of
`Disp` and `VF` are then free values (log entry 5) and everything else is kept. -/
def Obligations.DrawBeyondMemoryFails : Prop :=
  ∀ (x y : RegIdx) (n : Nibble) (s : State), ¬ s.spriteReadable y n →
    ∃ t, exec (.draw x y n) s = .next t ∧ Reports .outOfBoundsAccess s t ∧
      Frame { v := [VF], disp := true, status := true, free := true } s t

/-- R183 (derived there): a second DRAW of the same sprite at the same coordinates restores the display, and its `VF`
is 1 exactly when a pixel the sprite touches is lit after the first. -/
def Obligations.DrawTwiceRestoresDisplay : Prop :=
  ∀ (x y : RegIdx) (n : Nibble) (s t : State), s.spriteReadable y n → exec (.draw x y n) s = .next t →
    (t.readV x).toNat % 64 = (s.readV x).toNat % 64 → (t.readV y).toNat % 32 = (s.readV y).toNat % 32 →
    ∃ u, exec (.draw x y n) t = .next u ∧ (∀ r c : Nat, u.pixel r c = s.pixel r c) ∧
      ((∃ r c : Nat, t.pixel r c = some true ∧ s.spritePixel x y n r c = true) → u.readV VF = 0x01#8) ∧
      ((¬ ∃ r c : Nat, t.pixel r c = some true ∧ s.spritePixel x y n r c = true) → u.readV VF = 0x00#8)

/-! ## Keypad and timers -/

/-- 45_keypad_timer_ops.md R200, R201: with a key index in 0..15, SKPR skips when the key is pressed and SKUP when it is
not. -/
def Obligations.KeySkipsFollowKeypad : Prop :=
  ∀ (x : RegIdx) (p : Bool) (s : State), s.key (s.readV x).toNat = some p →
    (decodeWord (ofFamilyByte 0xE#4 x 0x9E#8) = .ok (.skpr x) ∧
      ∃ t, exec (.skpr x) s = .next t ∧ t.pc = (if p = true then s.pc + 2#16 else s.pc) ∧ Frame { pc := true } s t) ∧
    (decodeWord (ofFamilyByte 0xE#4 x 0xA1#8) = .ok (.skup x) ∧
      ∃ t, exec (.skup x) s = .next t ∧ t.pc = (if p = true then s.pc else s.pc + 2#16) ∧ Frame { pc := true } s t)

/-- R200, R201 (D15): a key index above 15 records `InvalidKeyIndex` and changes nothing else. -/
def Obligations.KeyIndexAboveFifteenFails : Prop :=
  ∀ (x : RegIdx) (s : State), 15 < (s.readV x).toNat →
    (∃ t, exec (.skpr x) s = .next t ∧ Reports .invalidKeyIndex s t ∧ Frame { status := true } s t) ∧
    (∃ t, exec (.skup x) s = .next t ∧ Reports .invalidKeyIndex s t ∧ Frame { status := true } s t)

/-- R203: KEY stores the lowest pressed key and goes on; with none pressed it moves `PC` back by 2 and writes nothing.
-/
def Obligations.KeyStoresLowestPressed : Prop :=
  ∀ (x : RegIdx) (s : State), decodeWord (ofFamilyByte 0xF#4 x 0x0A#8) = .ok (.key x) ∧
    (∀ k : Nat, s.key k = some true → (∀ j : Nat, j < k → s.key j = some false) →
      ∃ t, exec (.key x) s = .next t ∧ (t.readV x).toNat = k ∧ Frame { v := [x] } s t) ∧
    ((∀ k : Nat, s.key k ≠ some true) →
      ∃ t, exec (.key x) s = .next t ∧ t.pc = s.pc - 2#16 ∧ Frame { pc := true } s t)

/-- R203, R274 (`draw_flag`: D22): while no key is pressed, a CYCLE that fetches KEY ends with `PC` at that same KEY
and nothing else written. -/
def Obligations.KeyWaitsInPlace : Prop :=
  ∀ (rnd : Byte) (x : RegIdx) (s : State), s.halted = false →
    s.fetchWord = some (ofFamilyByte 0xF#4 x 0x0A#8) → (∀ k : Nat, s.key k ≠ some true) →
    ∃ t, cycle rnd s = .next t ∧ t.pc = s.pc ∧ t.halted = false ∧ t.fault = s.fault ∧ t.cyc.result = none ∧
      t.drawFlag = false ∧ Frame { status := true, drawFlag := true, cycInput := true } s t

/-- R202, R204, R205: GDELAY copies `DT` into `V[x]`; SDELAY and SSOUND copy `V[x]` into `DT` and `ST`, the sound output
included. -/
def Obligations.TimerMovesCopy : Prop :=
  ∀ (x : RegIdx) (s : State),
    (decodeWord (ofFamilyByte 0xF#4 x 0x07#8) = .ok (.gdelay x) ∧
      ∃ t, exec (.gdelay x) s = .next t ∧ t.readV x = s.dt ∧ Frame { v := [x] } s t) ∧
    (decodeWord (ofFamilyByte 0xF#4 x 0x15#8) = .ok (.sdelay x) ∧
      ∃ t, exec (.sdelay x) s = .next t ∧ t.dt = s.readV x ∧ Frame { dt := true } s t) ∧
    (decodeWord (ofFamilyByte 0xF#4 x 0x18#8) = .ok (.ssound x) ∧
      ∃ t, exec (.ssound x) s = .next t ∧ t.outputs.st = s.readV x ∧ Frame { st := true } s t)

/-! ## Commands, reset, end of a run -/

/-- 60_exceptions.md R235 (halted or not: D24): TICK takes 1 off each timer, never below 0, and touches nothing else. -/
def Obligations.TickCountsDown : Prop :=
  ∀ s : State, ∃ t, issue .tick s = .next t ∧ t.dt.toNat = s.dt.toNat - 1 ∧ t.st.toNat = s.st.toNat - 1 ∧
    Frame { dt := true, st := true } s t

/-- 10_state.md R54 (D20): KEY_SET writes the one flag, and nothing with a key index above 15. -/
def Obligations.KeySetWritesOneKey : Prop :=
  ∀ (k : Nat) (p : Bool) (s : State),
    (k ≤ 15 → ∃ t, issue (.keySet k p) s = .next t ∧ t.key k = some p ∧ (∀ j : Nat, j ≠ k → t.key j = s.key j) ∧
      Frame { keys := true } s t) ∧
    (15 < k → issue (.keySet k p) s = .next s)

/-- 20_memory.md R70 (D21): LOAD writes its bytes from the offset on, drops those above 0xFFF, and leaves every other
byte and all other state; the memory keeps its canonical form. -/
def Obligations.LoadWritesItsRange : Prop :=
  ∀ (off : Nat) (bytes : List Byte) (s : State), s.mem.wf = true →
    ∃ t, issue (.load off bytes) s = .next t ∧
      (∀ a : Nat, off ≤ a → a < off + bytes.length → a ≤ 0xFFF → t.memRead a = bytes[a - off]?) ∧
      (∀ a : Nat, ¬ (off ≤ a ∧ a < off + bytes.length ∧ a ≤ 0xFFF) → t.memRead a = s.memRead a) ∧
      t.mem.wf = true ∧ Frame { mem := true } s t

/-- R20, R51, R260 (D1; the OPEN parameters D3, D4, D5; the status state D16, D17, D22): CREATE sets every element of
state to its value in R20, the OPEN parameters and the configuration as given. -/
def Obligations.CreateSetsEveryElement : Prop :=
  ∀ (p : CreateParams) (s : State), p.memInit.length = 4096 →
    ∃ t, issue (.create p) s = .next t ∧ (∀ r : RegIdx, t.readV r = 0x00#8) ∧ t.index.toNat = p.iInit.toNat ∧
      t.pc = 0x200#16 ∧ t.stack = [] ∧ (∀ r c : Nat, r < 32 → c < 64 → t.pixel r c = some false) ∧
      t.dt = p.dtInit ∧ t.st = p.stInit ∧ (∀ k : Nat, k < 16 → t.key k = some false) ∧
      (∀ a : Nat, a ≤ 0xFFF → t.memRead a = p.memInit[a]?) ∧ t.halted = false ∧ t.fault = none ∧ t.drawFlag = false ∧
      t.shiftMode = p.shiftMode ∧ t.jumpMode = p.jumpMode ∧ t.subFlagMode = p.subFlagMode

/-- R20, R34, R260, R261 (status state and default modes: D8 to D10, D16, D17, D22): the reset values that the spec
gives, in the state after reset, with the default configuration. (`I`, `DT`, `ST` and memory are OPEN in R20: nothing
is said of them here; log entries 1 and 2.) -/
def Obligations.ResetHasGivenValues : Prop :=
  (∀ r : RegIdx, State.reset.readV r = 0x00#8) ∧ State.reset.pc = 0x200#16 ∧ State.reset.stack = [] ∧
  (∀ r c : Nat, r < 32 → c < 64 → State.reset.pixel r c = some false) ∧
  (∀ k : Nat, k < 16 → State.reset.key k = some false) ∧ State.reset.halted = false ∧ State.reset.fault = none ∧
  State.reset.drawFlag = false ∧ State.reset.shiftMode = .vyCopy ∧ State.reset.jumpMode = .v0 ∧
  State.reset.subFlagMode = .corrected

/-- R275 (D27; `draw_flag`: D22): at a jump to its own address a CYCLE leaves everything as it was but `draw_flag <-
0`. -/
def Obligations.SelfJumpLeavesState : Prop :=
  ∀ (rnd : Byte) (s : State), s.halted = false → s.fetchWord = some (0x1000#16 ||| s.pc) →
    ∃ t, cycle rnd s = .next t ∧ t.pc = s.pc ∧ t.halted = false ∧ t.fault = s.fault ∧ t.cyc.result = none ∧
      t.drawFlag = false ∧ Frame { status := true, drawFlag := true, cycInput := true } s t

/-! ## The invariant of runs -/

/-- The invariant holds after reset. -/
def Obligations.InvariantAtReset : Prop := State.reset.Inv

/-- The invariant holds after CREATE, whatever its arguments and whatever the state before. -/
def Obligations.CreateEstablishesInvariant : Prop :=
  ∀ (p : CreateParams) (s t : State), issue (.create p) s = .next t → t.Inv

/-- R25, R27, R28, R35, R120, R221, R224 (`PC` unmasked: D11; halting: D17): every step keeps the invariant: canonical
memory, `I` in 12 bits, `PC` at most 0x10FE, at most 16 stack entries in 0x002..0x1000, halted exactly after a fatal
failure. -/
def Obligations.StepKeepsInvariant : Prop :=
  ∀ s t : State, s.Inv → step s = .next t → t.Inv
end

