-- ==== Sys2Proof/Laws/Encoding.lean ====
section
/-! SUPPORT. The fields of the words the encoder builds, and the word of two bytes (30_encoding.md R91, R93). -/

namespace Sys2Proof

@[simp] theorem fieldFamily_ofNibbles (a b c d : Nibble) : fieldFamily (ofNibbles a b c d) = a := by
  simp only [fieldFamily, ofNibbles]
  apply BitVec.eq_of_getLsbD_eq
  intro i hi
  simp only [BitVec.getLsbD_extractLsb', BitVec.getLsbD_append]
  interval_cases i <;> simp

@[simp] theorem fieldX_ofNibbles (a b c d : Nibble) : fieldX (ofNibbles a b c d) = b := by
  simp only [fieldX, ofNibbles]
  apply BitVec.eq_of_getLsbD_eq
  intro i hi
  simp only [BitVec.getLsbD_extractLsb', BitVec.getLsbD_append]
  interval_cases i <;> simp

@[simp] theorem fieldY_ofNibbles (a b c d : Nibble) : fieldY (ofNibbles a b c d) = c := by
  simp only [fieldY, ofNibbles]
  apply BitVec.eq_of_getLsbD_eq
  intro i hi
  simp only [BitVec.getLsbD_extractLsb', BitVec.getLsbD_append]
  interval_cases i <;> simp

@[simp] theorem fieldN_ofNibbles (a b c d : Nibble) : fieldN (ofNibbles a b c d) = d := by
  simp only [fieldN, ofNibbles]
  apply BitVec.eq_of_getLsbD_eq
  intro i hi
  simp only [BitVec.getLsbD_extractLsb', BitVec.getLsbD_append]
  interval_cases i <;> simp

@[simp] theorem fieldFamily_ofFamilyByte (a b : Nibble) (nn : Byte) : fieldFamily (ofFamilyByte a b nn) = a := by
  simp only [fieldFamily, ofFamilyByte]
  apply BitVec.eq_of_getLsbD_eq
  intro i hi
  simp only [BitVec.getLsbD_extractLsb', BitVec.getLsbD_append]
  interval_cases i <;> simp

@[simp] theorem fieldX_ofFamilyByte (a b : Nibble) (nn : Byte) : fieldX (ofFamilyByte a b nn) = b := by
  simp only [fieldX, ofFamilyByte]
  apply BitVec.eq_of_getLsbD_eq
  intro i hi
  simp only [BitVec.getLsbD_extractLsb', BitVec.getLsbD_append]
  interval_cases i <;> simp

@[simp] theorem fieldNN_ofFamilyByte (a b : Nibble) (nn : Byte) : fieldNN (ofFamilyByte a b nn) = nn := by
  simp only [fieldNN, ofFamilyByte]
  apply BitVec.eq_of_getLsbD_eq
  intro i hi
  simp only [BitVec.getLsbD_extractLsb', BitVec.getLsbD_append]
  interval_cases i <;> simp

@[simp] theorem fieldFamily_ofFamilyAddress (a : Nibble) (nnn : Addr12) : fieldFamily (ofFamilyAddress a nnn) = a := by
  simp only [fieldFamily, ofFamilyAddress]
  apply BitVec.eq_of_getLsbD_eq
  intro i hi
  simp only [BitVec.getLsbD_extractLsb', BitVec.getLsbD_append]
  interval_cases i <;> simp

@[simp] theorem fieldNNN_ofFamilyAddress (a : Nibble) (nnn : Addr12) : fieldNNN (ofFamilyAddress a nnn) = nnn := by
  simp only [fieldNNN, ofFamilyAddress]
  apply BitVec.eq_of_getLsbD_eq
  intro i hi
  simp only [BitVec.getLsbD_extractLsb', BitVec.getLsbD_append]
  interval_cases i <;> simp

/-- A word is its four nibbles. -/
theorem ofNibbles_fields (w : Word) : ofNibbles (fieldFamily w) (fieldX w) (fieldY w) (fieldN w) = w := by
  simp only [ofNibbles, fieldFamily, fieldX, fieldY, fieldN]
  apply BitVec.eq_of_getLsbD_eq
  intro i hi
  simp only [BitVec.getLsbD_append, BitVec.getLsbD_extractLsb']
  interval_cases i <;> simp

/-- A word is its family, register and byte. -/
theorem ofFamilyByte_fields (w : Word) : ofFamilyByte (fieldFamily w) (fieldX w) (fieldNN w) = w := by
  simp only [ofFamilyByte, fieldFamily, fieldX, fieldNN]
  apply BitVec.eq_of_getLsbD_eq
  intro i hi
  simp only [BitVec.getLsbD_append, BitVec.getLsbD_extractLsb']
  interval_cases i <;> simp

/-- A word is its family and address. -/
theorem ofFamilyAddress_fields (w : Word) : ofFamilyAddress (fieldFamily w) (fieldNNN w) = w := by
  simp only [ofFamilyAddress, fieldFamily, fieldNNN]
  apply BitVec.eq_of_getLsbD_eq
  intro i hi
  simp only [BitVec.getLsbD_append, BitVec.getLsbD_extractLsb']
  interval_cases i <;> simp

/-- Storing a word's bytes and reading them back big-endian gives the word (R66). -/
@[simp] theorem wordOfBytes_high_low (w : Word) : wordOfBytes (highByte w) (lowByte w) = w := by
  simp only [wordOfBytes, highByte, lowByte]
  apply BitVec.eq_of_getLsbD_eq
  intro i hi
  simp only [BitVec.getLsbD_append, BitVec.getLsbD_extractLsb']
  interval_cases i <;> simp

@[simp] theorem highByte_wordOfBytes (hi lo : Byte) : highByte (wordOfBytes hi lo) = hi := by
  simp only [highByte, wordOfBytes]
  apply BitVec.eq_of_getLsbD_eq
  intro i hi
  simp only [BitVec.getLsbD_extractLsb', BitVec.getLsbD_append]
  interval_cases i <;> simp

@[simp] theorem lowByte_wordOfBytes (hi lo : Byte) : lowByte (wordOfBytes hi lo) = lo := by
  simp only [lowByte, wordOfBytes]
  apply BitVec.eq_of_getLsbD_eq
  intro i hi
  simp only [BitVec.getLsbD_extractLsb', BitVec.getLsbD_append]
  interval_cases i <;> simp

end Sys2Proof
end

