-- ==== Sys2Proof/Laws/State.lean ====
section
/-! SUPPORT. One lemma per field and update: what each named update of the state leaves in each field. -/

namespace Sys2Proof.Machine

@[simp] theorem State.writeV_v (s : State) (x : RegIdx) (b : Byte) : (s.writeV x b).v = s.v.set x.toNat b x.isLt := rfl
@[simp] theorem State.writeV_index (s : State) (x : RegIdx) (b : Byte) : (s.writeV x b).index = s.index := rfl
@[simp] theorem State.writeV_pc (s : State) (x : RegIdx) (b : Byte) : (s.writeV x b).pc = s.pc := rfl
@[simp] theorem State.writeV_stack (s : State) (x : RegIdx) (b : Byte) : (s.writeV x b).stack = s.stack := rfl
@[simp] theorem State.writeV_disp (s : State) (x : RegIdx) (b : Byte) : (s.writeV x b).disp = s.disp := rfl
@[simp] theorem State.writeV_dt (s : State) (x : RegIdx) (b : Byte) : (s.writeV x b).dt = s.dt := rfl
@[simp] theorem State.writeV_st (s : State) (x : RegIdx) (b : Byte) : (s.writeV x b).st = s.st := rfl
@[simp] theorem State.writeV_keys (s : State) (x : RegIdx) (b : Byte) : (s.writeV x b).keys = s.keys := rfl
@[simp] theorem State.writeV_mem (s : State) (x : RegIdx) (b : Byte) : (s.writeV x b).mem = s.mem := rfl
@[simp] theorem State.writeV_halted (s : State) (x : RegIdx) (b : Byte) : (s.writeV x b).halted = s.halted := rfl
@[simp] theorem State.writeV_fault (s : State) (x : RegIdx) (b : Byte) : (s.writeV x b).fault = s.fault := rfl
@[simp] theorem State.writeV_drawFlag (s : State) (x : RegIdx) (b : Byte) : (s.writeV x b).drawFlag = s.drawFlag := rfl
@[simp] theorem State.writeV_shiftMode (s : State) (x : RegIdx) (b : Byte) : (s.writeV x b).shiftMode = s.shiftMode := rfl
@[simp] theorem State.writeV_jumpMode (s : State) (x : RegIdx) (b : Byte) : (s.writeV x b).jumpMode = s.jumpMode := rfl
@[simp] theorem State.writeV_subFlagMode (s : State) (x : RegIdx) (b : Byte) : (s.writeV x b).subFlagMode = s.subFlagMode := rfl
@[simp] theorem State.writeV_cyc (s : State) (x : RegIdx) (b : Byte) : (s.writeV x b).cyc = s.cyc := rfl
@[simp] theorem State.writeV_free (s : State) (x : RegIdx) (b : Byte) : (s.writeV x b).free = s.free := rfl
@[simp] theorem State.writeV_drv (s : State) (x : RegIdx) (b : Byte) : (s.writeV x b).drv = s.drv := rfl

@[simp] theorem State.writeFlag_v (s : State) (c : Bool) : (s.writeFlag c).v = s.v.set 15 (flagByte c) := rfl
@[simp] theorem State.writeFlag_index (s : State) (c : Bool) : (s.writeFlag c).index = s.index := rfl
@[simp] theorem State.writeFlag_pc (s : State) (c : Bool) : (s.writeFlag c).pc = s.pc := rfl
@[simp] theorem State.writeFlag_stack (s : State) (c : Bool) : (s.writeFlag c).stack = s.stack := rfl
@[simp] theorem State.writeFlag_disp (s : State) (c : Bool) : (s.writeFlag c).disp = s.disp := rfl
@[simp] theorem State.writeFlag_dt (s : State) (c : Bool) : (s.writeFlag c).dt = s.dt := rfl
@[simp] theorem State.writeFlag_st (s : State) (c : Bool) : (s.writeFlag c).st = s.st := rfl
@[simp] theorem State.writeFlag_keys (s : State) (c : Bool) : (s.writeFlag c).keys = s.keys := rfl
@[simp] theorem State.writeFlag_mem (s : State) (c : Bool) : (s.writeFlag c).mem = s.mem := rfl
@[simp] theorem State.writeFlag_halted (s : State) (c : Bool) : (s.writeFlag c).halted = s.halted := rfl
@[simp] theorem State.writeFlag_fault (s : State) (c : Bool) : (s.writeFlag c).fault = s.fault := rfl
@[simp] theorem State.writeFlag_drawFlag (s : State) (c : Bool) : (s.writeFlag c).drawFlag = s.drawFlag := rfl
@[simp] theorem State.writeFlag_shiftMode (s : State) (c : Bool) : (s.writeFlag c).shiftMode = s.shiftMode := rfl
@[simp] theorem State.writeFlag_jumpMode (s : State) (c : Bool) : (s.writeFlag c).jumpMode = s.jumpMode := rfl
@[simp] theorem State.writeFlag_subFlagMode (s : State) (c : Bool) : (s.writeFlag c).subFlagMode = s.subFlagMode := rfl
@[simp] theorem State.writeFlag_cyc (s : State) (c : Bool) : (s.writeFlag c).cyc = s.cyc := rfl
@[simp] theorem State.writeFlag_free (s : State) (c : Bool) : (s.writeFlag c).free = s.free := rfl
@[simp] theorem State.writeFlag_drv (s : State) (c : Bool) : (s.writeFlag c).drv = s.drv := rfl

@[simp] theorem State.writeIndex_v (s : State) (w : Word) : (s.writeIndex w).v = s.v := rfl
@[simp] theorem State.writeIndex_index (s : State) (w : Word) : (s.writeIndex w).index = w &&& 0x0FFF#16 := rfl
@[simp] theorem State.writeIndex_pc (s : State) (w : Word) : (s.writeIndex w).pc = s.pc := rfl
@[simp] theorem State.writeIndex_stack (s : State) (w : Word) : (s.writeIndex w).stack = s.stack := rfl
@[simp] theorem State.writeIndex_disp (s : State) (w : Word) : (s.writeIndex w).disp = s.disp := rfl
@[simp] theorem State.writeIndex_dt (s : State) (w : Word) : (s.writeIndex w).dt = s.dt := rfl
@[simp] theorem State.writeIndex_st (s : State) (w : Word) : (s.writeIndex w).st = s.st := rfl
@[simp] theorem State.writeIndex_keys (s : State) (w : Word) : (s.writeIndex w).keys = s.keys := rfl
@[simp] theorem State.writeIndex_mem (s : State) (w : Word) : (s.writeIndex w).mem = s.mem := rfl
@[simp] theorem State.writeIndex_halted (s : State) (w : Word) : (s.writeIndex w).halted = s.halted := rfl
@[simp] theorem State.writeIndex_fault (s : State) (w : Word) : (s.writeIndex w).fault = s.fault := rfl
@[simp] theorem State.writeIndex_drawFlag (s : State) (w : Word) : (s.writeIndex w).drawFlag = s.drawFlag := rfl
@[simp] theorem State.writeIndex_shiftMode (s : State) (w : Word) : (s.writeIndex w).shiftMode = s.shiftMode := rfl
@[simp] theorem State.writeIndex_jumpMode (s : State) (w : Word) : (s.writeIndex w).jumpMode = s.jumpMode := rfl
@[simp] theorem State.writeIndex_subFlagMode (s : State) (w : Word) : (s.writeIndex w).subFlagMode = s.subFlagMode := rfl
@[simp] theorem State.writeIndex_cyc (s : State) (w : Word) : (s.writeIndex w).cyc = s.cyc := rfl
@[simp] theorem State.writeIndex_free (s : State) (w : Word) : (s.writeIndex w).free = s.free := rfl
@[simp] theorem State.writeIndex_drv (s : State) (w : Word) : (s.writeIndex w).drv = s.drv := rfl

@[simp] theorem State.setPc_v (s : State) (w : Word) : (s.setPc w).v = s.v := rfl
@[simp] theorem State.setPc_index (s : State) (w : Word) : (s.setPc w).index = s.index := rfl
@[simp] theorem State.setPc_pc (s : State) (w : Word) : (s.setPc w).pc = w := rfl
@[simp] theorem State.setPc_stack (s : State) (w : Word) : (s.setPc w).stack = s.stack := rfl
@[simp] theorem State.setPc_disp (s : State) (w : Word) : (s.setPc w).disp = s.disp := rfl
@[simp] theorem State.setPc_dt (s : State) (w : Word) : (s.setPc w).dt = s.dt := rfl
@[simp] theorem State.setPc_st (s : State) (w : Word) : (s.setPc w).st = s.st := rfl
@[simp] theorem State.setPc_keys (s : State) (w : Word) : (s.setPc w).keys = s.keys := rfl
@[simp] theorem State.setPc_mem (s : State) (w : Word) : (s.setPc w).mem = s.mem := rfl
@[simp] theorem State.setPc_halted (s : State) (w : Word) : (s.setPc w).halted = s.halted := rfl
@[simp] theorem State.setPc_fault (s : State) (w : Word) : (s.setPc w).fault = s.fault := rfl
@[simp] theorem State.setPc_drawFlag (s : State) (w : Word) : (s.setPc w).drawFlag = s.drawFlag := rfl
@[simp] theorem State.setPc_shiftMode (s : State) (w : Word) : (s.setPc w).shiftMode = s.shiftMode := rfl
@[simp] theorem State.setPc_jumpMode (s : State) (w : Word) : (s.setPc w).jumpMode = s.jumpMode := rfl
@[simp] theorem State.setPc_subFlagMode (s : State) (w : Word) : (s.setPc w).subFlagMode = s.subFlagMode := rfl
@[simp] theorem State.setPc_cyc (s : State) (w : Word) : (s.setPc w).cyc = s.cyc := rfl
@[simp] theorem State.setPc_free (s : State) (w : Word) : (s.setPc w).free = s.free := rfl
@[simp] theorem State.setPc_drv (s : State) (w : Word) : (s.setPc w).drv = s.drv := rfl

@[simp] theorem State.skipNext_v (s : State) : s.skipNext.v = s.v := rfl
@[simp] theorem State.skipNext_index (s : State) : s.skipNext.index = s.index := rfl
@[simp] theorem State.skipNext_pc (s : State) : s.skipNext.pc = s.pc + 2#16 := rfl
@[simp] theorem State.skipNext_stack (s : State) : s.skipNext.stack = s.stack := rfl
@[simp] theorem State.skipNext_disp (s : State) : s.skipNext.disp = s.disp := rfl
@[simp] theorem State.skipNext_dt (s : State) : s.skipNext.dt = s.dt := rfl
@[simp] theorem State.skipNext_st (s : State) : s.skipNext.st = s.st := rfl
@[simp] theorem State.skipNext_keys (s : State) : s.skipNext.keys = s.keys := rfl
@[simp] theorem State.skipNext_mem (s : State) : s.skipNext.mem = s.mem := rfl
@[simp] theorem State.skipNext_halted (s : State) : s.skipNext.halted = s.halted := rfl
@[simp] theorem State.skipNext_fault (s : State) : s.skipNext.fault = s.fault := rfl
@[simp] theorem State.skipNext_drawFlag (s : State) : s.skipNext.drawFlag = s.drawFlag := rfl
@[simp] theorem State.skipNext_shiftMode (s : State) : s.skipNext.shiftMode = s.shiftMode := rfl
@[simp] theorem State.skipNext_jumpMode (s : State) : s.skipNext.jumpMode = s.jumpMode := rfl
@[simp] theorem State.skipNext_subFlagMode (s : State) : s.skipNext.subFlagMode = s.subFlagMode := rfl
@[simp] theorem State.skipNext_cyc (s : State) : s.skipNext.cyc = s.cyc := rfl
@[simp] theorem State.skipNext_free (s : State) : s.skipNext.free = s.free := rfl
@[simp] theorem State.skipNext_drv (s : State) : s.skipNext.drv = s.drv := rfl

@[simp] theorem State.rewind_v (s : State) : s.rewind.v = s.v := rfl
@[simp] theorem State.rewind_index (s : State) : s.rewind.index = s.index := rfl
@[simp] theorem State.rewind_pc (s : State) : s.rewind.pc = s.pc - 2#16 := rfl
@[simp] theorem State.rewind_stack (s : State) : s.rewind.stack = s.stack := rfl
@[simp] theorem State.rewind_disp (s : State) : s.rewind.disp = s.disp := rfl
@[simp] theorem State.rewind_dt (s : State) : s.rewind.dt = s.dt := rfl
@[simp] theorem State.rewind_st (s : State) : s.rewind.st = s.st := rfl
@[simp] theorem State.rewind_keys (s : State) : s.rewind.keys = s.keys := rfl
@[simp] theorem State.rewind_mem (s : State) : s.rewind.mem = s.mem := rfl
@[simp] theorem State.rewind_halted (s : State) : s.rewind.halted = s.halted := rfl
@[simp] theorem State.rewind_fault (s : State) : s.rewind.fault = s.fault := rfl
@[simp] theorem State.rewind_drawFlag (s : State) : s.rewind.drawFlag = s.drawFlag := rfl
@[simp] theorem State.rewind_shiftMode (s : State) : s.rewind.shiftMode = s.shiftMode := rfl
@[simp] theorem State.rewind_jumpMode (s : State) : s.rewind.jumpMode = s.jumpMode := rfl
@[simp] theorem State.rewind_subFlagMode (s : State) : s.rewind.subFlagMode = s.subFlagMode := rfl
@[simp] theorem State.rewind_cyc (s : State) : s.rewind.cyc = s.cyc := rfl
@[simp] theorem State.rewind_free (s : State) : s.rewind.free = s.free := rfl
@[simp] theorem State.rewind_drv (s : State) : s.rewind.drv = s.drv := rfl

@[simp] theorem State.writeDt_v (s : State) (b : Byte) : (s.writeDt b).v = s.v := rfl
@[simp] theorem State.writeDt_index (s : State) (b : Byte) : (s.writeDt b).index = s.index := rfl
@[simp] theorem State.writeDt_pc (s : State) (b : Byte) : (s.writeDt b).pc = s.pc := rfl
@[simp] theorem State.writeDt_stack (s : State) (b : Byte) : (s.writeDt b).stack = s.stack := rfl
@[simp] theorem State.writeDt_disp (s : State) (b : Byte) : (s.writeDt b).disp = s.disp := rfl
@[simp] theorem State.writeDt_dt (s : State) (b : Byte) : (s.writeDt b).dt = b := rfl
@[simp] theorem State.writeDt_st (s : State) (b : Byte) : (s.writeDt b).st = s.st := rfl
@[simp] theorem State.writeDt_keys (s : State) (b : Byte) : (s.writeDt b).keys = s.keys := rfl
@[simp] theorem State.writeDt_mem (s : State) (b : Byte) : (s.writeDt b).mem = s.mem := rfl
@[simp] theorem State.writeDt_halted (s : State) (b : Byte) : (s.writeDt b).halted = s.halted := rfl
@[simp] theorem State.writeDt_fault (s : State) (b : Byte) : (s.writeDt b).fault = s.fault := rfl
@[simp] theorem State.writeDt_drawFlag (s : State) (b : Byte) : (s.writeDt b).drawFlag = s.drawFlag := rfl
@[simp] theorem State.writeDt_shiftMode (s : State) (b : Byte) : (s.writeDt b).shiftMode = s.shiftMode := rfl
@[simp] theorem State.writeDt_jumpMode (s : State) (b : Byte) : (s.writeDt b).jumpMode = s.jumpMode := rfl
@[simp] theorem State.writeDt_subFlagMode (s : State) (b : Byte) : (s.writeDt b).subFlagMode = s.subFlagMode := rfl
@[simp] theorem State.writeDt_cyc (s : State) (b : Byte) : (s.writeDt b).cyc = s.cyc := rfl
@[simp] theorem State.writeDt_free (s : State) (b : Byte) : (s.writeDt b).free = s.free := rfl
@[simp] theorem State.writeDt_drv (s : State) (b : Byte) : (s.writeDt b).drv = s.drv := rfl

@[simp] theorem State.writeSt_v (s : State) (b : Byte) : (s.writeSt b).v = s.v := rfl
@[simp] theorem State.writeSt_index (s : State) (b : Byte) : (s.writeSt b).index = s.index := rfl
@[simp] theorem State.writeSt_pc (s : State) (b : Byte) : (s.writeSt b).pc = s.pc := rfl
@[simp] theorem State.writeSt_stack (s : State) (b : Byte) : (s.writeSt b).stack = s.stack := rfl
@[simp] theorem State.writeSt_disp (s : State) (b : Byte) : (s.writeSt b).disp = s.disp := rfl
@[simp] theorem State.writeSt_dt (s : State) (b : Byte) : (s.writeSt b).dt = s.dt := rfl
@[simp] theorem State.writeSt_st (s : State) (b : Byte) : (s.writeSt b).st = b := rfl
@[simp] theorem State.writeSt_keys (s : State) (b : Byte) : (s.writeSt b).keys = s.keys := rfl
@[simp] theorem State.writeSt_mem (s : State) (b : Byte) : (s.writeSt b).mem = s.mem := rfl
@[simp] theorem State.writeSt_halted (s : State) (b : Byte) : (s.writeSt b).halted = s.halted := rfl
@[simp] theorem State.writeSt_fault (s : State) (b : Byte) : (s.writeSt b).fault = s.fault := rfl
@[simp] theorem State.writeSt_drawFlag (s : State) (b : Byte) : (s.writeSt b).drawFlag = s.drawFlag := rfl
@[simp] theorem State.writeSt_shiftMode (s : State) (b : Byte) : (s.writeSt b).shiftMode = s.shiftMode := rfl
@[simp] theorem State.writeSt_jumpMode (s : State) (b : Byte) : (s.writeSt b).jumpMode = s.jumpMode := rfl
@[simp] theorem State.writeSt_subFlagMode (s : State) (b : Byte) : (s.writeSt b).subFlagMode = s.subFlagMode := rfl
@[simp] theorem State.writeSt_cyc (s : State) (b : Byte) : (s.writeSt b).cyc = s.cyc := rfl
@[simp] theorem State.writeSt_free (s : State) (b : Byte) : (s.writeSt b).free = s.free := rfl
@[simp] theorem State.writeSt_drv (s : State) (b : Byte) : (s.writeSt b).drv = s.drv := rfl

@[simp] theorem State.raise_v (s : State) (k : FailureKind) : (s.raise k).v = s.v := rfl
@[simp] theorem State.raise_index (s : State) (k : FailureKind) : (s.raise k).index = s.index := rfl
@[simp] theorem State.raise_pc (s : State) (k : FailureKind) : (s.raise k).pc = s.pc := rfl
@[simp] theorem State.raise_stack (s : State) (k : FailureKind) : (s.raise k).stack = s.stack := rfl
@[simp] theorem State.raise_disp (s : State) (k : FailureKind) : (s.raise k).disp = s.disp := rfl
@[simp] theorem State.raise_dt (s : State) (k : FailureKind) : (s.raise k).dt = s.dt := rfl
@[simp] theorem State.raise_st (s : State) (k : FailureKind) : (s.raise k).st = s.st := rfl
@[simp] theorem State.raise_keys (s : State) (k : FailureKind) : (s.raise k).keys = s.keys := rfl
@[simp] theorem State.raise_mem (s : State) (k : FailureKind) : (s.raise k).mem = s.mem := rfl
@[simp] theorem State.raise_halted (s : State) (k : FailureKind) : (s.raise k).halted = (s.halted || k.fatal) := rfl
@[simp] theorem State.raise_fault (s : State) (k : FailureKind) : (s.raise k).fault = some { kind := k, addr := s.cyc.addr, word := s.cyc.word } := rfl
@[simp] theorem State.raise_drawFlag (s : State) (k : FailureKind) : (s.raise k).drawFlag = s.drawFlag := rfl
@[simp] theorem State.raise_shiftMode (s : State) (k : FailureKind) : (s.raise k).shiftMode = s.shiftMode := rfl
@[simp] theorem State.raise_jumpMode (s : State) (k : FailureKind) : (s.raise k).jumpMode = s.jumpMode := rfl
@[simp] theorem State.raise_subFlagMode (s : State) (k : FailureKind) : (s.raise k).subFlagMode = s.subFlagMode := rfl
@[simp] theorem State.raise_cyc (s : State) (k : FailureKind) : (s.raise k).cyc = { s.cyc with result := some k } := rfl
@[simp] theorem State.raise_free (s : State) (k : FailureKind) : (s.raise k).free = s.free := rfl
@[simp] theorem State.raise_drv (s : State) (k : FailureKind) : (s.raise k).drv = s.drv := rfl

@[simp] theorem State.scrambleDisplay_v (s : State) : s.scrambleDisplay.v = s.v.set 15 (Config.freeVF s.free) := rfl
@[simp] theorem State.scrambleDisplay_index (s : State) : s.scrambleDisplay.index = s.index := rfl
@[simp] theorem State.scrambleDisplay_pc (s : State) : s.scrambleDisplay.pc = s.pc := rfl
@[simp] theorem State.scrambleDisplay_stack (s : State) : s.scrambleDisplay.stack = s.stack := rfl
@[simp] theorem State.scrambleDisplay_disp (s : State) : s.scrambleDisplay.disp = Config.freeDisplay s.free := rfl
@[simp] theorem State.scrambleDisplay_dt (s : State) : s.scrambleDisplay.dt = s.dt := rfl
@[simp] theorem State.scrambleDisplay_st (s : State) : s.scrambleDisplay.st = s.st := rfl
@[simp] theorem State.scrambleDisplay_keys (s : State) : s.scrambleDisplay.keys = s.keys := rfl
@[simp] theorem State.scrambleDisplay_mem (s : State) : s.scrambleDisplay.mem = s.mem := rfl
@[simp] theorem State.scrambleDisplay_halted (s : State) : s.scrambleDisplay.halted = s.halted := rfl
@[simp] theorem State.scrambleDisplay_fault (s : State) : s.scrambleDisplay.fault = s.fault := rfl
@[simp] theorem State.scrambleDisplay_drawFlag (s : State) : s.scrambleDisplay.drawFlag = s.drawFlag := rfl
@[simp] theorem State.scrambleDisplay_shiftMode (s : State) : s.scrambleDisplay.shiftMode = s.shiftMode := rfl
@[simp] theorem State.scrambleDisplay_jumpMode (s : State) : s.scrambleDisplay.jumpMode = s.jumpMode := rfl
@[simp] theorem State.scrambleDisplay_subFlagMode (s : State) : s.scrambleDisplay.subFlagMode = s.subFlagMode := rfl
@[simp] theorem State.scrambleDisplay_cyc (s : State) : s.scrambleDisplay.cyc = s.cyc := rfl
@[simp] theorem State.scrambleDisplay_free (s : State) : s.scrambleDisplay.free = s.free + 1 := rfl
@[simp] theorem State.scrambleDisplay_drv (s : State) : s.scrambleDisplay.drv = s.drv := rfl

@[simp] theorem State.tick_v (s : State) : s.tick.v = s.v := rfl
@[simp] theorem State.tick_index (s : State) : s.tick.index = s.index := rfl
@[simp] theorem State.tick_pc (s : State) : s.tick.pc = s.pc := rfl
@[simp] theorem State.tick_stack (s : State) : s.tick.stack = s.stack := rfl
@[simp] theorem State.tick_disp (s : State) : s.tick.disp = s.disp := rfl
@[simp] theorem State.tick_dt (s : State) : s.tick.dt = countDown s.dt := rfl
@[simp] theorem State.tick_st (s : State) : s.tick.st = countDown s.st := rfl
@[simp] theorem State.tick_keys (s : State) : s.tick.keys = s.keys := rfl
@[simp] theorem State.tick_mem (s : State) : s.tick.mem = s.mem := rfl
@[simp] theorem State.tick_halted (s : State) : s.tick.halted = s.halted := rfl
@[simp] theorem State.tick_fault (s : State) : s.tick.fault = s.fault := rfl
@[simp] theorem State.tick_drawFlag (s : State) : s.tick.drawFlag = s.drawFlag := rfl
@[simp] theorem State.tick_shiftMode (s : State) : s.tick.shiftMode = s.shiftMode := rfl
@[simp] theorem State.tick_jumpMode (s : State) : s.tick.jumpMode = s.jumpMode := rfl
@[simp] theorem State.tick_subFlagMode (s : State) : s.tick.subFlagMode = s.subFlagMode := rfl
@[simp] theorem State.tick_cyc (s : State) : s.tick.cyc = s.cyc := rfl
@[simp] theorem State.tick_free (s : State) : s.tick.free = s.free := rfl
@[simp] theorem State.tick_drv (s : State) : s.tick.drv = s.drv := rfl

@[simp] theorem State.keySet_v (s : State) (k : Nat) (p : Bool) : (s.keySet k p).v = s.v := rfl
@[simp] theorem State.keySet_index (s : State) (k : Nat) (p : Bool) : (s.keySet k p).index = s.index := rfl
@[simp] theorem State.keySet_pc (s : State) (k : Nat) (p : Bool) : (s.keySet k p).pc = s.pc := rfl
@[simp] theorem State.keySet_stack (s : State) (k : Nat) (p : Bool) : (s.keySet k p).stack = s.stack := rfl
@[simp] theorem State.keySet_disp (s : State) (k : Nat) (p : Bool) : (s.keySet k p).disp = s.disp := rfl
@[simp] theorem State.keySet_dt (s : State) (k : Nat) (p : Bool) : (s.keySet k p).dt = s.dt := rfl
@[simp] theorem State.keySet_st (s : State) (k : Nat) (p : Bool) : (s.keySet k p).st = s.st := rfl
@[simp] theorem State.keySet_keys (s : State) (k : Nat) (p : Bool) : (s.keySet k p).keys = s.keys.setIfInBounds k p := rfl
@[simp] theorem State.keySet_mem (s : State) (k : Nat) (p : Bool) : (s.keySet k p).mem = s.mem := rfl
@[simp] theorem State.keySet_halted (s : State) (k : Nat) (p : Bool) : (s.keySet k p).halted = s.halted := rfl
@[simp] theorem State.keySet_fault (s : State) (k : Nat) (p : Bool) : (s.keySet k p).fault = s.fault := rfl
@[simp] theorem State.keySet_drawFlag (s : State) (k : Nat) (p : Bool) : (s.keySet k p).drawFlag = s.drawFlag := rfl
@[simp] theorem State.keySet_shiftMode (s : State) (k : Nat) (p : Bool) : (s.keySet k p).shiftMode = s.shiftMode := rfl
@[simp] theorem State.keySet_jumpMode (s : State) (k : Nat) (p : Bool) : (s.keySet k p).jumpMode = s.jumpMode := rfl
@[simp] theorem State.keySet_subFlagMode (s : State) (k : Nat) (p : Bool) : (s.keySet k p).subFlagMode = s.subFlagMode := rfl
@[simp] theorem State.keySet_cyc (s : State) (k : Nat) (p : Bool) : (s.keySet k p).cyc = s.cyc := rfl
@[simp] theorem State.keySet_free (s : State) (k : Nat) (p : Bool) : (s.keySet k p).free = s.free := rfl
@[simp] theorem State.keySet_drv (s : State) (k : Nat) (p : Bool) : (s.keySet k p).drv = s.drv := rfl

@[simp] theorem State.beginCycle_v (s : State) (r : Byte) : (s.beginCycle r).v = s.v := rfl
@[simp] theorem State.beginCycle_index (s : State) (r : Byte) : (s.beginCycle r).index = s.index := rfl
@[simp] theorem State.beginCycle_pc (s : State) (r : Byte) : (s.beginCycle r).pc = s.pc := rfl
@[simp] theorem State.beginCycle_stack (s : State) (r : Byte) : (s.beginCycle r).stack = s.stack := rfl
@[simp] theorem State.beginCycle_disp (s : State) (r : Byte) : (s.beginCycle r).disp = s.disp := rfl
@[simp] theorem State.beginCycle_dt (s : State) (r : Byte) : (s.beginCycle r).dt = s.dt := rfl
@[simp] theorem State.beginCycle_st (s : State) (r : Byte) : (s.beginCycle r).st = s.st := rfl
@[simp] theorem State.beginCycle_keys (s : State) (r : Byte) : (s.beginCycle r).keys = s.keys := rfl
@[simp] theorem State.beginCycle_mem (s : State) (r : Byte) : (s.beginCycle r).mem = s.mem := rfl
@[simp] theorem State.beginCycle_halted (s : State) (r : Byte) : (s.beginCycle r).halted = s.halted := rfl
@[simp] theorem State.beginCycle_fault (s : State) (r : Byte) : (s.beginCycle r).fault = s.fault := rfl
@[simp] theorem State.beginCycle_drawFlag (s : State) (r : Byte) : (s.beginCycle r).drawFlag = false := rfl
@[simp] theorem State.beginCycle_shiftMode (s : State) (r : Byte) : (s.beginCycle r).shiftMode = s.shiftMode := rfl
@[simp] theorem State.beginCycle_jumpMode (s : State) (r : Byte) : (s.beginCycle r).jumpMode = s.jumpMode := rfl
@[simp] theorem State.beginCycle_subFlagMode (s : State) (r : Byte) : (s.beginCycle r).subFlagMode = s.subFlagMode := rfl
@[simp] theorem State.beginCycle_cyc (s : State) (r : Byte) : (s.beginCycle r).cyc = { addr := s.pc, word := none, rnd := r, result := none } := rfl
@[simp] theorem State.beginCycle_free (s : State) (r : Byte) : (s.beginCycle r).free = s.free := rfl
@[simp] theorem State.beginCycle_drv (s : State) (r : Byte) : (s.beginCycle r).drv = s.drv := rfl

@[simp] theorem State.fetched_v (s : State) (w : Word) : (s.fetched w).v = s.v := rfl
@[simp] theorem State.fetched_index (s : State) (w : Word) : (s.fetched w).index = s.index := rfl
@[simp] theorem State.fetched_pc (s : State) (w : Word) : (s.fetched w).pc = s.pc + 2#16 := rfl
@[simp] theorem State.fetched_stack (s : State) (w : Word) : (s.fetched w).stack = s.stack := rfl
@[simp] theorem State.fetched_disp (s : State) (w : Word) : (s.fetched w).disp = s.disp := rfl
@[simp] theorem State.fetched_dt (s : State) (w : Word) : (s.fetched w).dt = s.dt := rfl
@[simp] theorem State.fetched_st (s : State) (w : Word) : (s.fetched w).st = s.st := rfl
@[simp] theorem State.fetched_keys (s : State) (w : Word) : (s.fetched w).keys = s.keys := rfl
@[simp] theorem State.fetched_mem (s : State) (w : Word) : (s.fetched w).mem = s.mem := rfl
@[simp] theorem State.fetched_halted (s : State) (w : Word) : (s.fetched w).halted = s.halted := rfl
@[simp] theorem State.fetched_fault (s : State) (w : Word) : (s.fetched w).fault = s.fault := rfl
@[simp] theorem State.fetched_drawFlag (s : State) (w : Word) : (s.fetched w).drawFlag = s.drawFlag := rfl
@[simp] theorem State.fetched_shiftMode (s : State) (w : Word) : (s.fetched w).shiftMode = s.shiftMode := rfl
@[simp] theorem State.fetched_jumpMode (s : State) (w : Word) : (s.fetched w).jumpMode = s.jumpMode := rfl
@[simp] theorem State.fetched_subFlagMode (s : State) (w : Word) : (s.fetched w).subFlagMode = s.subFlagMode := rfl
@[simp] theorem State.fetched_cyc (s : State) (w : Word) : (s.fetched w).cyc = { s.cyc with word := some w } := rfl
@[simp] theorem State.fetched_free (s : State) (w : Word) : (s.fetched w).free = s.free := rfl
@[simp] theorem State.fetched_drv (s : State) (w : Word) : (s.fetched w).drv = s.drv := rfl

@[simp] theorem State.atExecute_v (s : State) (r : Byte) (w : Word) : (s.atExecute r w).v = s.v := rfl
@[simp] theorem State.atExecute_index (s : State) (r : Byte) (w : Word) : (s.atExecute r w).index = s.index := rfl
@[simp] theorem State.atExecute_pc (s : State) (r : Byte) (w : Word) : (s.atExecute r w).pc = s.pc + 2#16 := rfl
@[simp] theorem State.atExecute_stack (s : State) (r : Byte) (w : Word) : (s.atExecute r w).stack = s.stack := rfl
@[simp] theorem State.atExecute_disp (s : State) (r : Byte) (w : Word) : (s.atExecute r w).disp = s.disp := rfl
@[simp] theorem State.atExecute_dt (s : State) (r : Byte) (w : Word) : (s.atExecute r w).dt = s.dt := rfl
@[simp] theorem State.atExecute_st (s : State) (r : Byte) (w : Word) : (s.atExecute r w).st = s.st := rfl
@[simp] theorem State.atExecute_keys (s : State) (r : Byte) (w : Word) : (s.atExecute r w).keys = s.keys := rfl
@[simp] theorem State.atExecute_mem (s : State) (r : Byte) (w : Word) : (s.atExecute r w).mem = s.mem := rfl
@[simp] theorem State.atExecute_halted (s : State) (r : Byte) (w : Word) : (s.atExecute r w).halted = s.halted := rfl
@[simp] theorem State.atExecute_fault (s : State) (r : Byte) (w : Word) : (s.atExecute r w).fault = s.fault := rfl
@[simp] theorem State.atExecute_drawFlag (s : State) (r : Byte) (w : Word) : (s.atExecute r w).drawFlag = false := rfl
@[simp] theorem State.atExecute_shiftMode (s : State) (r : Byte) (w : Word) : (s.atExecute r w).shiftMode = s.shiftMode := rfl
@[simp] theorem State.atExecute_jumpMode (s : State) (r : Byte) (w : Word) : (s.atExecute r w).jumpMode = s.jumpMode := rfl
@[simp] theorem State.atExecute_subFlagMode (s : State) (r : Byte) (w : Word) : (s.atExecute r w).subFlagMode = s.subFlagMode := rfl
@[simp] theorem State.atExecute_cyc (s : State) (r : Byte) (w : Word) : (s.atExecute r w).cyc = { addr := s.pc, word := some w, rnd := r, result := none } := rfl
@[simp] theorem State.atExecute_free (s : State) (r : Byte) (w : Word) : (s.atExecute r w).free = s.free := rfl
@[simp] theorem State.atExecute_drv (s : State) (r : Byte) (w : Word) : (s.atExecute r w).drv = s.drv := rfl

@[simp] theorem State.haltedCycle_v (s : State) : s.haltedCycle.v = s.v := rfl
@[simp] theorem State.haltedCycle_index (s : State) : s.haltedCycle.index = s.index := rfl
@[simp] theorem State.haltedCycle_pc (s : State) : s.haltedCycle.pc = s.pc := rfl
@[simp] theorem State.haltedCycle_stack (s : State) : s.haltedCycle.stack = s.stack := rfl
@[simp] theorem State.haltedCycle_disp (s : State) : s.haltedCycle.disp = s.disp := rfl
@[simp] theorem State.haltedCycle_dt (s : State) : s.haltedCycle.dt = s.dt := rfl
@[simp] theorem State.haltedCycle_st (s : State) : s.haltedCycle.st = s.st := rfl
@[simp] theorem State.haltedCycle_keys (s : State) : s.haltedCycle.keys = s.keys := rfl
@[simp] theorem State.haltedCycle_mem (s : State) : s.haltedCycle.mem = s.mem := rfl
@[simp] theorem State.haltedCycle_halted (s : State) : s.haltedCycle.halted = s.halted := rfl
@[simp] theorem State.haltedCycle_fault (s : State) : s.haltedCycle.fault = s.fault := rfl
@[simp] theorem State.haltedCycle_drawFlag (s : State) : s.haltedCycle.drawFlag = s.drawFlag := rfl
@[simp] theorem State.haltedCycle_shiftMode (s : State) : s.haltedCycle.shiftMode = s.shiftMode := rfl
@[simp] theorem State.haltedCycle_jumpMode (s : State) : s.haltedCycle.jumpMode = s.jumpMode := rfl
@[simp] theorem State.haltedCycle_subFlagMode (s : State) : s.haltedCycle.subFlagMode = s.subFlagMode := rfl
@[simp] theorem State.haltedCycle_cyc (s : State) : s.haltedCycle.cyc = { s.cyc with result := s.fault.map FaultRecord.kind } := rfl
@[simp] theorem State.haltedCycle_free (s : State) : s.haltedCycle.free = s.free := rfl
@[simp] theorem State.haltedCycle_drv (s : State) : s.haltedCycle.drv = s.drv := rfl

@[simp] theorem State.takeScripted_v (s : State) (rest : List Command) : (s.takeScripted rest).v = s.v := rfl
@[simp] theorem State.takeScripted_index (s : State) (rest : List Command) : (s.takeScripted rest).index = s.index := rfl
@[simp] theorem State.takeScripted_pc (s : State) (rest : List Command) : (s.takeScripted rest).pc = s.pc := rfl
@[simp] theorem State.takeScripted_stack (s : State) (rest : List Command) : (s.takeScripted rest).stack = s.stack := rfl
@[simp] theorem State.takeScripted_disp (s : State) (rest : List Command) : (s.takeScripted rest).disp = s.disp := rfl
@[simp] theorem State.takeScripted_dt (s : State) (rest : List Command) : (s.takeScripted rest).dt = s.dt := rfl
@[simp] theorem State.takeScripted_st (s : State) (rest : List Command) : (s.takeScripted rest).st = s.st := rfl
@[simp] theorem State.takeScripted_keys (s : State) (rest : List Command) : (s.takeScripted rest).keys = s.keys := rfl
@[simp] theorem State.takeScripted_mem (s : State) (rest : List Command) : (s.takeScripted rest).mem = s.mem := rfl
@[simp] theorem State.takeScripted_halted (s : State) (rest : List Command) : (s.takeScripted rest).halted = s.halted := rfl
@[simp] theorem State.takeScripted_fault (s : State) (rest : List Command) : (s.takeScripted rest).fault = s.fault := rfl
@[simp] theorem State.takeScripted_drawFlag (s : State) (rest : List Command) : (s.takeScripted rest).drawFlag = s.drawFlag := rfl
@[simp] theorem State.takeScripted_shiftMode (s : State) (rest : List Command) : (s.takeScripted rest).shiftMode = s.shiftMode := rfl
@[simp] theorem State.takeScripted_jumpMode (s : State) (rest : List Command) : (s.takeScripted rest).jumpMode = s.jumpMode := rfl
@[simp] theorem State.takeScripted_subFlagMode (s : State) (rest : List Command) : (s.takeScripted rest).subFlagMode = s.subFlagMode := rfl
@[simp] theorem State.takeScripted_cyc (s : State) (rest : List Command) : (s.takeScripted rest).cyc = s.cyc := rfl
@[simp] theorem State.takeScripted_free (s : State) (rest : List Command) : (s.takeScripted rest).free = s.free := rfl
@[simp] theorem State.takeScripted_drv (s : State) (rest : List Command) : (s.takeScripted rest).drv = { s.drv with script := rest } := rfl

@[simp] theorem State.drawFree_v (s : State) : s.drawFree.v = s.v := rfl
@[simp] theorem State.drawFree_index (s : State) : s.drawFree.index = s.index := rfl
@[simp] theorem State.drawFree_pc (s : State) : s.drawFree.pc = s.pc := rfl
@[simp] theorem State.drawFree_stack (s : State) : s.drawFree.stack = s.stack := rfl
@[simp] theorem State.drawFree_disp (s : State) : s.drawFree.disp = s.disp := rfl
@[simp] theorem State.drawFree_dt (s : State) : s.drawFree.dt = s.dt := rfl
@[simp] theorem State.drawFree_st (s : State) : s.drawFree.st = s.st := rfl
@[simp] theorem State.drawFree_keys (s : State) : s.drawFree.keys = s.keys := rfl
@[simp] theorem State.drawFree_mem (s : State) : s.drawFree.mem = s.mem := rfl
@[simp] theorem State.drawFree_halted (s : State) : s.drawFree.halted = s.halted := rfl
@[simp] theorem State.drawFree_fault (s : State) : s.drawFree.fault = s.fault := rfl
@[simp] theorem State.drawFree_drawFlag (s : State) : s.drawFree.drawFlag = s.drawFlag := rfl
@[simp] theorem State.drawFree_shiftMode (s : State) : s.drawFree.shiftMode = s.shiftMode := rfl
@[simp] theorem State.drawFree_jumpMode (s : State) : s.drawFree.jumpMode = s.jumpMode := rfl
@[simp] theorem State.drawFree_subFlagMode (s : State) : s.drawFree.subFlagMode = s.subFlagMode := rfl
@[simp] theorem State.drawFree_cyc (s : State) : s.drawFree.cyc = s.cyc := rfl
@[simp] theorem State.drawFree_free (s : State) : s.drawFree.free = s.free + 1 := rfl
@[simp] theorem State.drawFree_drv (s : State) : s.drawFree.drv = s.drv := rfl

end Sys2Proof.Machine
end

