-- ==== Sys2Proof/Laws/Memory.lean ====
section
/-! SUPPORT. Memory laws: a read after a write, and that every memory operation keeps the canonical form. -/

namespace Sys2Proof.Machine

theorem Memory.wfFrom_cons {lo k : Nat} {c : Byte} {m : Memory} :
    Memory.wfFrom lo ((k, c) :: m) = true ↔
      lo ≤ k ∧ k ≤ 0xFFF ∧ c ≠ unlistedByte ∧ Memory.wfFrom (k + 1) m = true := by
  simp only [Memory.wfFrom, Bool.and_eq_true, decide_eq_true_eq, and_assoc]
  rfl

theorem Memory.wfFrom_mono {lo lo' : Nat} {m : Memory} (h : Memory.wfFrom lo m = true) (hl : lo' ≤ lo) :
    Memory.wfFrom lo' m = true := by
  cases m with
  | nil => rfl
  | cons p m =>
    obtain ⟨k, c⟩ := p
    rw [Memory.wfFrom_cons] at h ⊢
    exact ⟨by omega, h.2⟩

/-- An address below every listed one reads as an unlisted byte. -/
theorem Memory.read_below {lo a : Nat} {m : Memory} (h : Memory.wfFrom lo m = true) (ha : a < lo) :
    m.read a = unlistedByte := by
  induction m generalizing lo with
  | nil => rfl
  | cons p m ih =>
    obtain ⟨k, c⟩ := p
    rw [Memory.wfFrom_cons] at h
    have hk : ¬ k = a := by omega
    simp only [Memory.read, hk, if_false]
    exact ih h.2.2.2 (by omega)

theorem Memory.read_put {a a' : Nat} {b : Byte} {m : Memory} (h : a' = a → m.read a' = unlistedByte) :
    (Memory.put a b m).read a' = if a = a' then b else m.read a' := by
  unfold Memory.put
  by_cases hb : b = unlistedByte
  · by_cases ha : a = a'
    · simp [hb, ha, h ha.symm]
    · simp [hb, ha]
  · simp [hb, Memory.read]

theorem Memory.wfFrom_put {lo a : Nat} {b : Byte} {m : Memory} (hlo : lo ≤ a) (ha : a ≤ 0xFFF)
    (h : Memory.wfFrom (a + 1) m = true) : Memory.wfFrom lo (Memory.put a b m) = true := by
  unfold Memory.put
  by_cases hb : b = unlistedByte
  · simpa [hb] using Memory.wfFrom_mono h (by omega)
  · simp [hb, Memory.wfFrom_cons, hlo, ha, h]

theorem Memory.wfFrom_write {lo a : Nat} {b : Byte} {m : Memory} (hlo : lo ≤ a) (ha : a ≤ 0xFFF)
    (h : Memory.wfFrom lo m = true) : Memory.wfFrom lo (m.write a b) = true := by
  induction m generalizing lo with
  | nil => exact Memory.wfFrom_put hlo ha rfl
  | cons p m ih =>
    obtain ⟨k, c⟩ := p
    rw [Memory.wfFrom_cons] at h
    obtain ⟨h1, h2, h3, h4⟩ := h
    rcases Nat.lt_trichotomy k a with hk | hk | hk
    · simp [Memory.write, hk, Memory.wfFrom_cons, h1, h2, h3, ih (Nat.succ_le_of_lt hk) h4]
    · subst hk
      simpa [Memory.write] using Memory.wfFrom_put h1 h2 h4
    · simpa [Memory.write, Nat.not_lt.mpr hk.le, hk.ne'] using
        Memory.wfFrom_put hlo ha (Memory.wfFrom_cons.mpr ⟨by omega, h2, h3, h4⟩)

theorem Memory.wf_write {a : Nat} {b : Byte} {m : Memory} (ha : a ≤ 0xFFF) (h : m.wf = true) :
    (m.write a b).wf = true :=
  Memory.wfFrom_write (Nat.zero_le a) ha h

/-- Read after write, from canonical memory on. -/
theorem Memory.read_write_from {lo a a' : Nat} {b : Byte} {m : Memory} (h : Memory.wfFrom lo m = true) :
    (m.write a b).read a' = if a = a' then b else m.read a' := by
  induction m generalizing lo with
  | nil => exact Memory.read_put fun _ => rfl
  | cons p m ih =>
    obtain ⟨k, c⟩ := p
    rw [Memory.wfFrom_cons] at h
    obtain ⟨h1, h2, h3, h4⟩ := h
    rcases Nat.lt_trichotomy k a with hk | hk | hk
    · simp only [Memory.write, hk, if_true, Memory.read, ih h4]
      by_cases hka : k = a'
      · have : ¬ a = a' := by omega
        simp [hka, this]
      · simp [hka]
    · subst hk
      simp only [Memory.write, Nat.lt_irrefl, if_false, if_true]
      rw [Memory.read_put fun e => Memory.read_below h4 (by omega)]
      by_cases hka : k = a' <;> simp [hka, Memory.read]
    · simp only [Memory.write, Nat.not_lt.mpr hk.le, hk.ne', if_false]
      exact Memory.read_put fun e =>
        Memory.read_below (lo := k) (Memory.wfFrom_cons.mpr ⟨le_rfl, h2, h3, h4⟩) (by omega)

/-- Read after write. -/
theorem Memory.read_write {a a' : Nat} {b : Byte} {m : Memory} (h : m.wf = true) :
    (m.write a b).read a' = if a = a' then b else m.read a' :=
  Memory.read_write_from h

/-- Canonical memories that read alike everywhere are equal data. -/
theorem Memory.ext_read_from {lo : Nat} {m m' : Memory} (h : Memory.wfFrom lo m = true)
    (h' : Memory.wfFrom lo m' = true) (e : ∀ a, m.read a = m'.read a) : m = m' := by
  induction m generalizing lo m' with
  | nil =>
    cases m' with
    | nil => rfl
    | cons p m' =>
      obtain ⟨k, c⟩ := p
      rw [Memory.wfFrom_cons] at h'
      have := e k
      simp [Memory.read] at this
      exact absurd this.symm h'.2.2.1
  | cons p m ih =>
    obtain ⟨k, c⟩ := p
    rw [Memory.wfFrom_cons] at h
    cases m' with
    | nil =>
      have := e k
      simp [Memory.read] at this
      exact absurd this h.2.2.1
    | cons p' m' =>
      obtain ⟨k', c'⟩ := p'
      rw [Memory.wfFrom_cons] at h'
      have hkk : k = k' := by
        rcases Nat.lt_trichotomy k k' with hk | hk | hk
        · have := e k
          rw [Memory.read_below (lo := k') (Memory.wfFrom_cons.mpr ⟨le_rfl, h'.2⟩) hk] at this
          simp [Memory.read] at this
          exact absurd this h.2.2.1
        · exact hk
        · have := e k'
          rw [Memory.read_below (lo := k) (Memory.wfFrom_cons.mpr ⟨le_rfl, h.2⟩) hk] at this
          simp [Memory.read] at this
          exact absurd this.symm h'.2.2.1
      subst hkk
      have hc : c = c' := by simpa [Memory.read] using e k
      subst hc
      congr 1
      refine ih h.2.2.2 h'.2.2.2 fun a => ?_
      by_cases ha : k = a
      · rw [Memory.read_below h.2.2.2 (by omega), Memory.read_below h'.2.2.2 (by omega)]
      · simpa [Memory.read, ha] using e a

theorem Memory.ext_read {m m' : Memory} (h : m.wf = true) (h' : m'.wf = true) (e : ∀ a, m.read a = m'.read a) :
    m = m' :=
  Memory.ext_read_from h h' e

/-! ## The state's memory operations -/

theorem State.memRead_inside {s : State} {a : Nat} (h : a ≤ 0xFFF) : s.memRead a = some (s.mem.read a) := by
  simp [State.memRead, Config.lastAddress, Nat.not_lt.mpr h]

theorem State.memRead_above {s : State} {a : Nat} (h : 0xFFF < a) : s.memRead a = none := by
  simp [State.memRead, Config.lastAddress, h]

theorem State.memRead_congr {s t : State} (h : t.mem = s.mem) (a : Nat) : t.memRead a = s.memRead a := by
  simp [State.memRead, h]

theorem State.memWrite_wf {s : State} (h : s.mem.wf = true) (a : Nat) (b : Byte) :
    (s.memWrite a b).mem.wf = true := by
  unfold State.memWrite
  split
  · exact Memory.wf_write (by simpa [Config.lastAddress] using ‹_›) h
  · exact h

theorem State.memRead_memWrite {s : State} (h : s.mem.wf = true) (a a' : Nat) (b : Byte) :
    (s.memWrite a b).memRead a' = if a = a' ∧ a ≤ 0xFFF then some b else s.memRead a' := by
  unfold State.memWrite State.memRead
  simp only [Config.lastAddress]
  by_cases h1 : a ≤ 0xFFF
  · by_cases h2 : a' > 0xFFF
    · have : ¬ a = a' := by omega
      simp [h1, h2, this]
    · simp only [h1, h2, if_true, if_false, and_true, Memory.read_write h]
      split <;> rfl
  · simp [h1]

/-- LOAD changes memory alone. -/
theorem State.loadBytes_only_mem (s : State) (off : Nat) (bs : List Byte) :
    s.loadBytes off bs = { s with mem := (s.loadBytes off bs).mem } := by
  induction bs generalizing s off with
  | nil => rfl
  | cons b bs ih =>
    have hw : s.memWrite off b = { s with mem := (s.memWrite off b).mem } := by
      unfold State.memWrite
      split <;> rfl
    rw [State.loadBytes, ih, hw]

theorem State.loadBytes_wf {s : State} (h : s.mem.wf = true) (off : Nat) (bs : List Byte) :
    (s.loadBytes off bs).mem.wf = true := by
  induction bs generalizing s off with
  | nil => exact h
  | cons b bs ih => exact ih (State.memWrite_wf h off b) (off + 1)

@[simp] theorem State.loadBytes_v (s : State) (off : Nat) (bs : List Byte) : (s.loadBytes off bs).v = s.v := by
  rw [State.loadBytes_only_mem]
@[simp] theorem State.loadBytes_index (s : State) (off : Nat) (bs : List Byte) : (s.loadBytes off bs).index = s.index := by
  rw [State.loadBytes_only_mem]
@[simp] theorem State.loadBytes_pc (s : State) (off : Nat) (bs : List Byte) : (s.loadBytes off bs).pc = s.pc := by
  rw [State.loadBytes_only_mem]
@[simp] theorem State.loadBytes_stack (s : State) (off : Nat) (bs : List Byte) : (s.loadBytes off bs).stack = s.stack := by
  rw [State.loadBytes_only_mem]
@[simp] theorem State.loadBytes_disp (s : State) (off : Nat) (bs : List Byte) : (s.loadBytes off bs).disp = s.disp := by
  rw [State.loadBytes_only_mem]
@[simp] theorem State.loadBytes_dt (s : State) (off : Nat) (bs : List Byte) : (s.loadBytes off bs).dt = s.dt := by
  rw [State.loadBytes_only_mem]
@[simp] theorem State.loadBytes_st (s : State) (off : Nat) (bs : List Byte) : (s.loadBytes off bs).st = s.st := by
  rw [State.loadBytes_only_mem]
@[simp] theorem State.loadBytes_keys (s : State) (off : Nat) (bs : List Byte) : (s.loadBytes off bs).keys = s.keys := by
  rw [State.loadBytes_only_mem]
@[simp] theorem State.loadBytes_halted (s : State) (off : Nat) (bs : List Byte) : (s.loadBytes off bs).halted = s.halted := by
  rw [State.loadBytes_only_mem]
@[simp] theorem State.loadBytes_fault (s : State) (off : Nat) (bs : List Byte) : (s.loadBytes off bs).fault = s.fault := by
  rw [State.loadBytes_only_mem]
@[simp] theorem State.loadBytes_drawFlag (s : State) (off : Nat) (bs : List Byte) : (s.loadBytes off bs).drawFlag = s.drawFlag := by
  rw [State.loadBytes_only_mem]
@[simp] theorem State.loadBytes_shiftMode (s : State) (off : Nat) (bs : List Byte) : (s.loadBytes off bs).shiftMode = s.shiftMode := by
  rw [State.loadBytes_only_mem]
@[simp] theorem State.loadBytes_jumpMode (s : State) (off : Nat) (bs : List Byte) : (s.loadBytes off bs).jumpMode = s.jumpMode := by
  rw [State.loadBytes_only_mem]
@[simp] theorem State.loadBytes_subFlagMode (s : State) (off : Nat) (bs : List Byte) : (s.loadBytes off bs).subFlagMode = s.subFlagMode := by
  rw [State.loadBytes_only_mem]
@[simp] theorem State.loadBytes_cyc (s : State) (off : Nat) (bs : List Byte) : (s.loadBytes off bs).cyc = s.cyc := by
  rw [State.loadBytes_only_mem]
@[simp] theorem State.loadBytes_free (s : State) (off : Nat) (bs : List Byte) : (s.loadBytes off bs).free = s.free := by
  rw [State.loadBytes_only_mem]
@[simp] theorem State.loadBytes_drv (s : State) (off : Nat) (bs : List Byte) : (s.loadBytes off bs).drv = s.drv := by
  rw [State.loadBytes_only_mem]

theorem State.loadBytes_memRead_before {s : State} (h : s.mem.wf = true) (off : Nat) (bs : List Byte) {a : Nat}
    (ha : a < off) : (s.loadBytes off bs).memRead a = s.memRead a := by
  induction bs generalizing s off with
  | nil => rfl
  | cons b bs ih =>
    have hne : ¬ (off = a ∧ off ≤ 0xFFF) := by omega
    rw [State.loadBytes, ih (State.memWrite_wf h off b) (off + 1) (by omega), State.memRead_memWrite h]
    simp [hne]

end Sys2Proof.Machine
end

