-- ==== Sys2Proof/Laws/Registers.lean ====
section
/-! SUPPORT. Laws of the register, stack, key and pixel accessors over the named updates, and the inversion lemmas of the
shared operations. -/

namespace Sys2Proof.Machine

theorem State.readV_congr {s t : State} (h : t.v = s.v) (r : RegIdx) : t.readV r = s.readV r := by
  simp [State.readV, h]

theorem State.pixel_congr {s t : State} (h : t.disp = s.disp) (r c : Nat) : t.pixel r c = s.pixel r c := by
  simp [State.pixel, h]

theorem State.key_congr {s t : State} (h : t.keys = s.keys) (k : Nat) : t.key k = s.key k := by
  simp [State.key, h]

/-- Read after write of a general register (R21). -/
theorem State.readV_writeV (s : State) (x r : RegIdx) (b : Byte) :
    (s.writeV x b).readV r = if x = r then b else s.readV r := by
  have hx : x.toNat = r.toNat ↔ x = r := BitVec.toNat_inj
  simp only [State.readV, State.writeV, Vector.get_eq_getElem]
  rw [Vector.getElem_set]
  exact if_congr hx rfl rfl

@[simp] theorem State.readV_writeV_self (s : State) (x : RegIdx) (b : Byte) : (s.writeV x b).readV x = b := by
  simp [State.readV_writeV]

theorem State.readV_writeV_ne (s : State) {x r : RegIdx} (h : x ≠ r) (b : Byte) :
    (s.writeV x b).readV r = s.readV r := by
  simp [State.readV_writeV, h]

/-- The flag write seen register by register. -/
theorem State.readV_writeFlag (s : State) (f : Bool) (r : RegIdx) :
    (s.writeFlag f).readV r = if VF = r then flagByte f else s.readV r :=
  s.readV_writeV VF r (flagByte f)

/-- Flag first, destination last: with `x = 0xF` the destination's value stays (R140). -/
theorem State.readV_writeFlagThenV (s : State) (f : Bool) (x r : RegIdx) (b : Byte) :
    (s.writeFlagThenV f x b).readV r = if x = r then b else if VF = r then flagByte f else s.readV r := by
  rw [State.writeFlagThenV, State.readV_writeV, State.readV_writeFlag]

/-- What `push` can do: 16 entries refuse, fewer take the new one (R28). -/
theorem State.push_cases (s : State) (w : Word) :
    (s.stack.length < 16 ∧ s.push w = some { s with stack := w :: s.stack }) ∨
    (16 ≤ s.stack.length ∧ s.push w = none) := by
  by_cases h : s.stack.length < 16
  · exact .inl ⟨h, by simp [State.push, Config.stackDepth, h]⟩
  · exact .inr ⟨by omega, by simp [State.push, Config.stackDepth, h]⟩

/-- What `pop` can do: an empty stack refuses, otherwise the newest entry comes off (R28). -/
theorem State.pop_cases (s : State) :
    (s.stack = [] ∧ s.pop = none) ∨
    (∃ w below, s.stack = w :: below ∧ s.pop = some (w, { s with stack := below })) := by
  cases h : s.stack with
  | nil => exact .inl ⟨rfl, by simp [State.pop, h]⟩
  | cons w below => exact .inr ⟨w, below, rfl, by simp [State.pop, h]⟩

/-- The key `V[x]` selects: a flag for 0..15, none above (R32). -/
theorem State.key_cases (s : State) (k : Nat) :
    (∃ h : k < 16, s.key k = some s.keys[k]) ∨ (16 ≤ k ∧ s.key k = none) := by
  by_cases h : k < 16
  · exact .inl ⟨h, by simp [State.key, h]⟩
  · exact .inr ⟨by omega, by simp [State.key]; omega⟩

/-- What the key scan finds: the lowest pressed key, or that none of the 16 is pressed (R203). -/
theorem State.firstPressed_cases (s : State) :
    (∃ k, k < 16 ∧ s.firstPressed = some k ∧ s.key k = some true ∧ ∀ j, j < k → s.key j ≠ some true) ∨
    (s.firstPressed = none ∧ ∀ j, j < 16 → s.key j ≠ some true) := by
  have hscan : keyScanOrder = List.range 16 := by decide
  cases h : s.firstPressed with
  | none =>
    refine .inr ⟨rfl, fun j hj hp => ?_⟩
    rw [State.firstPressed, hscan, List.find?_range_eq_none] at h
    simpa [hp] using h j hj
  | some k =>
    refine .inl ⟨k, ?_⟩
    rw [State.firstPressed, hscan, List.find?_range_eq_some] at h
    obtain ⟨hp, hk, hl⟩ := h
    refine ⟨List.mem_range.mp hk, rfl, by simpa using hp, fun j hj hp' => ?_⟩
    simpa [hp'] using hl j hj

@[simp] theorem State.readV_writeIndex (s : State) (w : Word) (i : RegIdx) : (s.writeIndex w).readV i = s.readV i := rfl
@[simp] theorem State.readV_setPc (s : State) (w : Word) (i : RegIdx) : (s.setPc w).readV i = s.readV i := rfl
@[simp] theorem State.readV_skipNext (s : State) (i : RegIdx) : s.skipNext.readV i = s.readV i := rfl
@[simp] theorem State.readV_rewind (s : State) (i : RegIdx) : s.rewind.readV i = s.readV i := rfl
@[simp] theorem State.readV_writeDt (s : State) (b : Byte) (i : RegIdx) : (s.writeDt b).readV i = s.readV i := rfl
@[simp] theorem State.readV_writeSt (s : State) (b : Byte) (i : RegIdx) : (s.writeSt b).readV i = s.readV i := rfl
@[simp] theorem State.readV_raise (s : State) (k : FailureKind) (i : RegIdx) : (s.raise k).readV i = s.readV i := rfl
@[simp] theorem State.readV_tick (s : State) (i : RegIdx) : s.tick.readV i = s.readV i := rfl
@[simp] theorem State.readV_keySet (s : State) (k : Nat) (p : Bool) (i : RegIdx) : (s.keySet k p).readV i = s.readV i := rfl
@[simp] theorem State.readV_beginCycle (s : State) (r : Byte) (i : RegIdx) : (s.beginCycle r).readV i = s.readV i := rfl
@[simp] theorem State.readV_fetched (s : State) (w : Word) (i : RegIdx) : (s.fetched w).readV i = s.readV i := rfl
@[simp] theorem State.readV_atExecute (s : State) (r : Byte) (w : Word) (i : RegIdx) : (s.atExecute r w).readV i = s.readV i := rfl
@[simp] theorem State.readV_haltedCycle (s : State) (i : RegIdx) : s.haltedCycle.readV i = s.readV i := rfl
@[simp] theorem State.readV_takeScripted (s : State) (rest : List Command) (i : RegIdx) : (s.takeScripted rest).readV i = s.readV i := rfl
@[simp] theorem State.readV_drawFree (s : State) (i : RegIdx) : s.drawFree.readV i = s.readV i := rfl

@[simp] theorem State.pixel_writeV (s : State) (x : RegIdx) (b : Byte) (i j : Nat) : (s.writeV x b).pixel i j = s.pixel i j := rfl
@[simp] theorem State.pixel_writeFlag (s : State) (f : Bool) (i j : Nat) : (s.writeFlag f).pixel i j = s.pixel i j := rfl
@[simp] theorem State.pixel_writeFlagThenV (s : State) (f : Bool) (x : RegIdx) (b : Byte) (i j : Nat) : (s.writeFlagThenV f x b).pixel i j = s.pixel i j := rfl
@[simp] theorem State.pixel_writeIndex (s : State) (w : Word) (i j : Nat) : (s.writeIndex w).pixel i j = s.pixel i j := rfl
@[simp] theorem State.pixel_setPc (s : State) (w : Word) (i j : Nat) : (s.setPc w).pixel i j = s.pixel i j := rfl
@[simp] theorem State.pixel_skipNext (s : State) (i j : Nat) : s.skipNext.pixel i j = s.pixel i j := rfl
@[simp] theorem State.pixel_rewind (s : State) (i j : Nat) : s.rewind.pixel i j = s.pixel i j := rfl
@[simp] theorem State.pixel_writeDt (s : State) (b : Byte) (i j : Nat) : (s.writeDt b).pixel i j = s.pixel i j := rfl
@[simp] theorem State.pixel_writeSt (s : State) (b : Byte) (i j : Nat) : (s.writeSt b).pixel i j = s.pixel i j := rfl
@[simp] theorem State.pixel_raise (s : State) (k : FailureKind) (i j : Nat) : (s.raise k).pixel i j = s.pixel i j := rfl
@[simp] theorem State.pixel_tick (s : State) (i j : Nat) : s.tick.pixel i j = s.pixel i j := rfl
@[simp] theorem State.pixel_keySet (s : State) (k : Nat) (p : Bool) (i j : Nat) : (s.keySet k p).pixel i j = s.pixel i j := rfl
@[simp] theorem State.pixel_beginCycle (s : State) (r : Byte) (i j : Nat) : (s.beginCycle r).pixel i j = s.pixel i j := rfl
@[simp] theorem State.pixel_fetched (s : State) (w : Word) (i j : Nat) : (s.fetched w).pixel i j = s.pixel i j := rfl
@[simp] theorem State.pixel_atExecute (s : State) (r : Byte) (w : Word) (i j : Nat) : (s.atExecute r w).pixel i j = s.pixel i j := rfl
@[simp] theorem State.pixel_haltedCycle (s : State) (i j : Nat) : s.haltedCycle.pixel i j = s.pixel i j := rfl
@[simp] theorem State.pixel_takeScripted (s : State) (rest : List Command) (i j : Nat) : (s.takeScripted rest).pixel i j = s.pixel i j := rfl
@[simp] theorem State.pixel_drawFree (s : State) (i j : Nat) : s.drawFree.pixel i j = s.pixel i j := rfl

@[simp] theorem State.key_writeV (s : State) (x : RegIdx) (b : Byte) (i : Nat) : (s.writeV x b).key i = s.key i := rfl
@[simp] theorem State.key_writeFlag (s : State) (f : Bool) (i : Nat) : (s.writeFlag f).key i = s.key i := rfl
@[simp] theorem State.key_writeFlagThenV (s : State) (f : Bool) (x : RegIdx) (b : Byte) (i : Nat) : (s.writeFlagThenV f x b).key i = s.key i := rfl
@[simp] theorem State.key_writeIndex (s : State) (w : Word) (i : Nat) : (s.writeIndex w).key i = s.key i := rfl
@[simp] theorem State.key_setPc (s : State) (w : Word) (i : Nat) : (s.setPc w).key i = s.key i := rfl
@[simp] theorem State.key_skipNext (s : State) (i : Nat) : s.skipNext.key i = s.key i := rfl
@[simp] theorem State.key_rewind (s : State) (i : Nat) : s.rewind.key i = s.key i := rfl
@[simp] theorem State.key_writeDt (s : State) (b : Byte) (i : Nat) : (s.writeDt b).key i = s.key i := rfl
@[simp] theorem State.key_writeSt (s : State) (b : Byte) (i : Nat) : (s.writeSt b).key i = s.key i := rfl
@[simp] theorem State.key_raise (s : State) (k : FailureKind) (i : Nat) : (s.raise k).key i = s.key i := rfl
@[simp] theorem State.key_scrambleDisplay (s : State) (i : Nat) : s.scrambleDisplay.key i = s.key i := rfl
@[simp] theorem State.key_tick (s : State) (i : Nat) : s.tick.key i = s.key i := rfl
@[simp] theorem State.key_beginCycle (s : State) (r : Byte) (i : Nat) : (s.beginCycle r).key i = s.key i := rfl
@[simp] theorem State.key_fetched (s : State) (w : Word) (i : Nat) : (s.fetched w).key i = s.key i := rfl
@[simp] theorem State.key_atExecute (s : State) (r : Byte) (w : Word) (i : Nat) : (s.atExecute r w).key i = s.key i := rfl
@[simp] theorem State.key_haltedCycle (s : State) (i : Nat) : s.haltedCycle.key i = s.key i := rfl
@[simp] theorem State.key_takeScripted (s : State) (rest : List Command) (i : Nat) : (s.takeScripted rest).key i = s.key i := rfl
@[simp] theorem State.key_drawFree (s : State) (i : Nat) : s.drawFree.key i = s.key i := rfl

@[simp] theorem State.memRead_writeV (s : State) (x : RegIdx) (b : Byte) (i : Nat) : (s.writeV x b).memRead i = s.memRead i := rfl
@[simp] theorem State.memRead_writeFlag (s : State) (f : Bool) (i : Nat) : (s.writeFlag f).memRead i = s.memRead i := rfl
@[simp] theorem State.memRead_writeFlagThenV (s : State) (f : Bool) (x : RegIdx) (b : Byte) (i : Nat) : (s.writeFlagThenV f x b).memRead i = s.memRead i := rfl
@[simp] theorem State.memRead_writeIndex (s : State) (w : Word) (i : Nat) : (s.writeIndex w).memRead i = s.memRead i := rfl
@[simp] theorem State.memRead_setPc (s : State) (w : Word) (i : Nat) : (s.setPc w).memRead i = s.memRead i := rfl
@[simp] theorem State.memRead_skipNext (s : State) (i : Nat) : s.skipNext.memRead i = s.memRead i := rfl
@[simp] theorem State.memRead_rewind (s : State) (i : Nat) : s.rewind.memRead i = s.memRead i := rfl
@[simp] theorem State.memRead_writeDt (s : State) (b : Byte) (i : Nat) : (s.writeDt b).memRead i = s.memRead i := rfl
@[simp] theorem State.memRead_writeSt (s : State) (b : Byte) (i : Nat) : (s.writeSt b).memRead i = s.memRead i := rfl
@[simp] theorem State.memRead_raise (s : State) (k : FailureKind) (i : Nat) : (s.raise k).memRead i = s.memRead i := rfl
@[simp] theorem State.memRead_scrambleDisplay (s : State) (i : Nat) : s.scrambleDisplay.memRead i = s.memRead i := rfl
@[simp] theorem State.memRead_tick (s : State) (i : Nat) : s.tick.memRead i = s.memRead i := rfl
@[simp] theorem State.memRead_keySet (s : State) (k : Nat) (p : Bool) (i : Nat) : (s.keySet k p).memRead i = s.memRead i := rfl
@[simp] theorem State.memRead_beginCycle (s : State) (r : Byte) (i : Nat) : (s.beginCycle r).memRead i = s.memRead i := rfl
@[simp] theorem State.memRead_fetched (s : State) (w : Word) (i : Nat) : (s.fetched w).memRead i = s.memRead i := rfl
@[simp] theorem State.memRead_atExecute (s : State) (r : Byte) (w : Word) (i : Nat) : (s.atExecute r w).memRead i = s.memRead i := rfl
@[simp] theorem State.memRead_haltedCycle (s : State) (i : Nat) : s.haltedCycle.memRead i = s.memRead i := rfl
@[simp] theorem State.memRead_takeScripted (s : State) (rest : List Command) (i : Nat) : (s.takeScripted rest).memRead i = s.memRead i := rfl
@[simp] theorem State.memRead_drawFree (s : State) (i : Nat) : s.drawFree.memRead i = s.memRead i := rfl

@[simp] theorem State.writeFlagThenV_index (s : State) (c : Bool) (x : RegIdx) (b : Byte) : (s.writeFlagThenV c x b).index = s.index := rfl
@[simp] theorem State.writeFlagThenV_pc (s : State) (c : Bool) (x : RegIdx) (b : Byte) : (s.writeFlagThenV c x b).pc = s.pc := rfl
@[simp] theorem State.writeFlagThenV_stack (s : State) (c : Bool) (x : RegIdx) (b : Byte) : (s.writeFlagThenV c x b).stack = s.stack := rfl
@[simp] theorem State.writeFlagThenV_disp (s : State) (c : Bool) (x : RegIdx) (b : Byte) : (s.writeFlagThenV c x b).disp = s.disp := rfl
@[simp] theorem State.writeFlagThenV_dt (s : State) (c : Bool) (x : RegIdx) (b : Byte) : (s.writeFlagThenV c x b).dt = s.dt := rfl
@[simp] theorem State.writeFlagThenV_st (s : State) (c : Bool) (x : RegIdx) (b : Byte) : (s.writeFlagThenV c x b).st = s.st := rfl
@[simp] theorem State.writeFlagThenV_keys (s : State) (c : Bool) (x : RegIdx) (b : Byte) : (s.writeFlagThenV c x b).keys = s.keys := rfl
@[simp] theorem State.writeFlagThenV_mem (s : State) (c : Bool) (x : RegIdx) (b : Byte) : (s.writeFlagThenV c x b).mem = s.mem := rfl
@[simp] theorem State.writeFlagThenV_halted (s : State) (c : Bool) (x : RegIdx) (b : Byte) : (s.writeFlagThenV c x b).halted = s.halted := rfl
@[simp] theorem State.writeFlagThenV_fault (s : State) (c : Bool) (x : RegIdx) (b : Byte) : (s.writeFlagThenV c x b).fault = s.fault := rfl
@[simp] theorem State.writeFlagThenV_drawFlag (s : State) (c : Bool) (x : RegIdx) (b : Byte) : (s.writeFlagThenV c x b).drawFlag = s.drawFlag := rfl
@[simp] theorem State.writeFlagThenV_shiftMode (s : State) (c : Bool) (x : RegIdx) (b : Byte) : (s.writeFlagThenV c x b).shiftMode = s.shiftMode := rfl
@[simp] theorem State.writeFlagThenV_jumpMode (s : State) (c : Bool) (x : RegIdx) (b : Byte) : (s.writeFlagThenV c x b).jumpMode = s.jumpMode := rfl
@[simp] theorem State.writeFlagThenV_subFlagMode (s : State) (c : Bool) (x : RegIdx) (b : Byte) : (s.writeFlagThenV c x b).subFlagMode = s.subFlagMode := rfl
@[simp] theorem State.writeFlagThenV_cyc (s : State) (c : Bool) (x : RegIdx) (b : Byte) : (s.writeFlagThenV c x b).cyc = s.cyc := rfl
@[simp] theorem State.writeFlagThenV_free (s : State) (c : Bool) (x : RegIdx) (b : Byte) : (s.writeFlagThenV c x b).free = s.free := rfl
@[simp] theorem State.writeFlagThenV_drv (s : State) (c : Bool) (x : RegIdx) (b : Byte) : (s.writeFlagThenV c x b).drv = s.drv := rfl

end Sys2Proof.Machine
end

