-- ==== Sys2Proof/Laws/Sprite.lean ====
section
/-! SUPPORT. What toggling one pixel and drawing one sprite row do, pixel by pixel (44_display.md R181, R182). -/

namespace Sys2Proof.Machine

theorem Display.pixel_inside (d : Display) {i j : Nat} (hi : i < 32) (hj : j < 64) :
    Display.pixel d i j = some d[i][j] := by
  simp [Display.pixel, hi, hj]

theorem Display.pixel_outside (d : Display) {i j : Nat} (h : ¬ (i < 32 ∧ j < 64)) : Display.pixel d i j = none := by
  by_cases hi : i < 32
  · have hj : ¬ j < 64 := fun hj => h ⟨hi, hj⟩
    simp [Display.pixel, hi, Nat.not_lt.mp hj]
  · simp [Display.pixel, Nat.not_lt.mp hi]

theorem Display.blank_pixel {i j : Nat} (hi : i < 32) (hj : j < 64) : Display.pixel Display.blank i j = some false := by
  rw [Display.pixel_inside _ hi hj]
  simp [Display.blank]

/-- A toggle turns over its own pixel and no other (R30). -/
theorem Canvas.toggle_disp (cv : Canvas) (r : Fin 32) (c : Nat) {i j : Nat} (hi : i < 32) (hj : j < 64) :
    (cv.toggle r c).disp[i][j] = (cv.disp[i][j] ^^ decide (i = r.val ∧ j = c)) := by
  unfold Canvas.toggle
  by_cases hc : c < 64
  · simp only [hc, dite_true]
    by_cases hir : r.val = i
    · subst hir
      by_cases hjc : c = j
      · subst hjc
        simp
      · have : ¬ j = c := fun e => hjc e.symm
        simp [hjc, this]
    · have : ¬ i = r.val := fun e => hir e.symm
      simp [hir, this]
  · have : ¬ j = c := by omega
    simp [hc, this]

/-- A toggle notes a collision exactly when its pixel was lit (R182). -/
theorem Canvas.toggle_collided (cv : Canvas) (r : Fin 32) (c : Nat) :
    (cv.toggle r c).collided = true ↔
      cv.collided = true ∨ ∃ h : c < 64, cv.disp[r.val][c] = true := by
  unfold Canvas.toggle
  by_cases hc : c < 64 <;> simp [hc]

/-- Drawing a list of distinct columns turns over the pixels of its set bits and no other. -/
theorem Canvas.drawBits_disp (cv : Canvas) (r : Fin 32) (x0 : Nat) (b : Byte) (ks : List Nat) (hk : ks.Nodup)
    {i j : Nat} (hi : i < 32) (hj : j < 64) :
    (cv.drawBits r x0 b ks).disp[i][j] =
      (cv.disp[i][j] ^^ decide (i = r.val ∧ ∃ k ∈ ks, j = x0 + k ∧ spriteBit b k = true)) := by
  induction ks generalizing cv with
  | nil => simp [Canvas.drawBits]
  | cons k ks ih =>
    rw [List.nodup_cons] at hk
    rw [Canvas.drawBits, ih _ hk.2]
    by_cases hb : spriteBit b k = true
    · rw [if_pos hb, Canvas.toggle_disp cv r _ hi hj]
      by_cases hir : i = r.val
      · by_cases hjk : j = x0 + k
        · subst hjk
          simp [hir, hb, hk.1]
        · simp [hir, hjk]
      · simp [hir]
    · simp [hb]

/-- The collision note after drawing a list of distinct columns. -/
theorem Canvas.drawBits_collided (cv : Canvas) (r : Fin 32) (x0 : Nat) (b : Byte) (ks : List Nat) (hk : ks.Nodup) :
    (cv.drawBits r x0 b ks).collided = true ↔
      cv.collided = true ∨ ∃ k ∈ ks, spriteBit b k = true ∧ ∃ h : x0 + k < 64, cv.disp[r.val][x0 + k] = true := by
  induction ks generalizing cv with
  | nil => simp [Canvas.drawBits]
  | cons k ks ih =>
    rw [List.nodup_cons] at hk
    rw [Canvas.drawBits, ih _ hk.2]
    by_cases hb : spriteBit b k = true
    · rw [if_pos hb, Canvas.toggle_collided]
      have hrest : (∃ k' ∈ ks, spriteBit b k' = true ∧
            ∃ h : x0 + k' < 64, (cv.toggle r (x0 + k)).disp[r.val][x0 + k'] = true) ↔
          ∃ k' ∈ ks, spriteBit b k' = true ∧ ∃ h : x0 + k' < 64, cv.disp[r.val][x0 + k'] = true := by
        refine exists_congr fun k' => and_congr_right fun hm => and_congr_right fun _ => exists_congr fun h => ?_
        have hne : ¬ k' = k := fun e => hk.1 (e ▸ hm)
        rw [Canvas.toggle_disp cv r _ r.isLt h]
        simp [hne]
      rw [hrest]
      simp [hb, or_assoc]
    · simp [hb]

theorem spriteBit_eq (b : Byte) {k : Nat} (hk : k < 8) : spriteBit b k = b.getLsbD (7 - k) := by
  simp [spriteBit, BitVec.getMsbD, hk]

theorem exists_column (x0 j : Nat) (p : Nat → Prop) :
    (∃ k ∈ [0, 1, 2, 3, 4, 5, 6, 7], j = x0 + k ∧ p k) ↔ x0 ≤ j ∧ j < x0 + 8 ∧ p (j - x0) := by
  constructor
  · rintro ⟨k, hk, rfl, hp⟩
    have : k < 8 := by
      simp at hk
      omega
    exact ⟨by omega, by omega, by simpa using hp⟩
  · rintro ⟨h1, h2, hp⟩
    refine ⟨j - x0, ?_, by omega, hp⟩
    have : j - x0 < 8 := by omega
    interval_cases j - x0 <;> simp

/-- One sprite row, pixel by pixel: XOR with the byte's bits from the anchor column on (R181, R182). -/
theorem Canvas.drawRow_disp (cv : Canvas) (r : Fin 32) (x0 : Nat) (b : Byte) {i j : Nat} (hi : i < 32) (hj : j < 64) :
    (cv.drawRow r x0 b).disp[i][j] =
      (cv.disp[i][j] ^^ decide (i = r.val ∧ x0 ≤ j ∧ j < x0 + 8 ∧ b.getLsbD (7 - (j - x0)) = true)) := by
  rw [Canvas.drawRow, Canvas.drawBits_disp cv r x0 b _ (by decide) hi hj]
  congr 1
  refine decide_eq_decide.mpr (and_congr_right fun _ => ?_)
  rw [exists_column x0 j fun k => spriteBit b k = true]
  refine and_congr_right fun h1 => and_congr_right fun h2 => ?_
  rw [spriteBit_eq b (by omega)]

/-- One sprite row collides when one of its set bits meets a lit pixel inside the row (R182). -/
theorem Canvas.drawRow_collided (cv : Canvas) (r : Fin 32) (x0 : Nat) (b : Byte) :
    (cv.drawRow r x0 b).collided = true ↔
      cv.collided = true ∨ ∃ j, ∃ h : j < 64, x0 ≤ j ∧ j < x0 + 8 ∧ b.getLsbD (7 - (j - x0)) = true ∧
        cv.disp[r.val][j] = true := by
  rw [Canvas.drawRow, Canvas.drawBits_collided cv r x0 b _ (by decide)]
  refine or_congr_right ⟨?_, ?_⟩
  · rintro ⟨k, hk, hb, h, hd⟩
    obtain ⟨h1, h2, hp⟩ := (exists_column x0 (x0 + k) fun k => spriteBit b k = true).mp ⟨k, hk, rfl, hb⟩
    exact ⟨x0 + k, h, h1, h2, by rwa [← spriteBit_eq b (by omega)], hd⟩
  · rintro ⟨j, h, h1, h2, hb, hd⟩
    obtain ⟨k, hk, rfl, hp⟩ := (exists_column x0 j fun k => spriteBit b k = true).mpr
      ⟨h1, h2, by rwa [spriteBit_eq b (by omega)]⟩
    exact ⟨k, hk, hp, h, hd⟩

/-- The one step of the row loop. -/
theorem State.drawRows_succ (s : State) (x0 y0 n r : Nat) (cv : Canvas) :
    (32 ≤ y0 + r ∧ s.drawRows x0 y0 (n + 1) r cv = some cv) ∨
    (∃ h : y0 + r < 32, s.index.toNat + r ≤ 0xFFF ∧
      s.drawRows x0 y0 (n + 1) r cv =
        s.drawRows x0 y0 n (r + 1) (cv.drawRow ⟨y0 + r, h⟩ x0 (s.mem.read (s.index.toNat + r)))) ∨
    (y0 + r < 32 ∧ 0xFFF < s.index.toNat + r ∧ s.drawRows x0 y0 (n + 1) r cv = none) := by
  by_cases h : y0 + r < 32
  · by_cases ha : s.index.toNat + r ≤ 0xFFF
    · refine .inr (.inl ⟨h, ha, ?_⟩)
      simp [State.drawRows, h, State.memRead, Config.lastAddress, Nat.not_lt.mpr ha]
    · refine .inr (.inr ⟨h, by omega, ?_⟩)
      have : s.index.toNat + r > 0xFFF := by omega
      simp [State.drawRows, h, State.memRead, Config.lastAddress, this]
  · exact .inl ⟨by omega, by simp [State.drawRows, h]⟩

end Sys2Proof.Machine
end

