-- ==== Sys2Proof/Laws/Exec.lean ====
section
/-! SUPPORT. What each meaning answers, in the shared operations, and the inversion lemmas of a CYCLE and of a step. -/

namespace Sys2Proof.Machine

@[simp] theorem exec_movImm (x : RegIdx) (nn : Byte) (s : State) : exec (.movImm x nn) s = .next (s.writeV x nn) := rfl

@[simp] theorem exec_addImm (x : RegIdx) (nn : Byte) (s : State) :
    exec (.addImm x nn) s = .next (s.writeV x (s.readV x + nn)) := rfl

@[simp] theorem exec_movReg (x y : RegIdx) (s : State) : exec (.movReg x y) s = .next (s.writeV x (s.readV y)) := rfl

@[simp] theorem exec_orReg (x y : RegIdx) (s : State) :
    exec (.orReg x y) s = .next (s.writeV x (s.readV x ||| s.readV y)) := rfl

@[simp] theorem exec_andReg (x y : RegIdx) (s : State) :
    exec (.andReg x y) s = .next (s.writeV x (s.readV x &&& s.readV y)) := rfl

@[simp] theorem exec_xorReg (x y : RegIdx) (s : State) :
    exec (.xorReg x y) s = .next (s.writeV x (s.readV x ^^^ s.readV y)) := rfl

@[simp] theorem exec_addReg (x y : RegIdx) (s : State) : exec (.addReg x y) s =
    .next (s.writeFlagThenV (carryFlag (s.readV x) (s.readV y)) x (s.readV x + s.readV y)) := rfl

@[simp] theorem exec_subReg (x y : RegIdx) (s : State) : exec (.subReg x y) s =
    .next (s.writeFlagThenV (subFlag s.subFlagMode (s.readV x) (s.readV y)) x (s.readV x - s.readV y)) := rfl

@[simp] theorem exec_shr (x y : RegIdx) (s : State) : exec (.shr x y) s =
    .next (s.writeFlagThenV (lowBitFlag (s.readV x)) x (s.shiftOperand x y >>> 1)) := rfl

@[simp] theorem exec_rsb (x y : RegIdx) (s : State) : exec (.rsb x y) s =
    .next (s.writeFlagThenV (noBorrowFlag (s.readV y) (s.readV x)) x (s.readV y - s.readV x)) := rfl

@[simp] theorem exec_shl (x y : RegIdx) (s : State) : exec (.shl x y) s =
    .next (s.writeFlagThenV (highBitFlag (s.readV x)) x (s.shiftOperand x y <<< 1)) := rfl

@[simp] theorem exec_rand (x : RegIdx) (nn : Byte) (s : State) :
    exec (.rand x nn) s = .next (s.writeV x (s.cyc.rnd &&& nn)) := rfl

@[simp] theorem exec_mvi (nnn : Addr12) (s : State) : exec (.mvi nnn) s = .next (s.writeIndex (zextAddress nnn)) := rfl

@[simp] theorem exec_adi (x : RegIdx) (s : State) : exec (.adi x) s =
    .next ((s.writeFlag (indexOverflowFlag s.index (s.readV x))).writeIndex
      (BitVec.ofNat 16 (indexSum s.index (s.readV x)))) := rfl

@[simp] theorem exec_jmp (nnn : Addr12) (s : State) : exec (.jmp nnn) s = .next (s.setPc (zextAddress nnn)) := rfl

@[simp] theorem exec_jmi (nnn : Addr12) (s : State) : exec (.jmi nnn) s =
    .next (s.setPc (zextAddress nnn + zextByte (s.jumpOffset nnn))) := rfl

@[simp] theorem exec_skeqImm (x : RegIdx) (nn : Byte) (s : State) :
    exec (.skeqImm x nn) s = .next (s.skipIf (s.readV x == nn)) := rfl

@[simp] theorem exec_skneImm (x : RegIdx) (nn : Byte) (s : State) :
    exec (.skneImm x nn) s = .next (s.skipIf (s.readV x != nn)) := rfl

@[simp] theorem exec_skeqReg (x y : RegIdx) (s : State) :
    exec (.skeqReg x y) s = .next (s.skipIf (s.readV x == s.readV y)) := rfl

@[simp] theorem exec_skneReg (x y : RegIdx) (s : State) :
    exec (.skneReg x y) s = .next (s.skipIf (s.readV x != s.readV y)) := rfl

@[simp] theorem exec_gdelay (x : RegIdx) (s : State) : exec (.gdelay x) s = .next (s.writeV x s.dt) := rfl

@[simp] theorem exec_sdelay (x : RegIdx) (s : State) : exec (.sdelay x) s = .next (s.writeDt (s.readV x)) := rfl

@[simp] theorem exec_ssound (x : RegIdx) (s : State) : exec (.ssound x) s = .next (s.writeSt (s.readV x)) := rfl

@[simp] theorem exec_cls (s : State) : exec .cls s = .next { s with disp := Display.blank, drawFlag := true } := rfl

/-- RTS: pops, or fails on an empty stack (R120). -/
theorem exec_rts_cases (s : State) :
    (s.stack = [] ∧ exec .rts s = .next (s.raise .stackUnderflow)) ∨
    (∃ w below, s.stack = w :: below ∧ exec .rts s = .next ({ s with stack := below }.setPc w)) := by
  rcases s.pop_cases with ⟨h, hp⟩ | ⟨w, below, h, hp⟩
  · exact .inl ⟨h, by simp [exec, execRts, hp]⟩
  · exact .inr ⟨w, below, h, by simp [exec, execRts, hp]⟩

/-- JSR: pushes, or fails on a full stack (R122). -/
theorem exec_jsr_cases (nnn : Addr12) (s : State) :
    (s.stack.length < 16 ∧
      exec (.jsr nnn) s = .next ({ s with stack := s.pc :: s.stack }.setPc (zextAddress nnn))) ∨
    (16 ≤ s.stack.length ∧ exec (.jsr nnn) s = .next (s.raise .stackOverflow)) := by
  rcases s.push_cases s.pc with ⟨h, hp⟩ | ⟨h, hp⟩
  · exact .inl ⟨h, by simp [exec, execJsr, hp]⟩
  · exact .inr ⟨h, by simp [exec, execJsr, hp]⟩

/-- SKPR: skips on a pressed key, or fails on a key index above 15 (R200). -/
theorem exec_skpr_cases (x : RegIdx) (s : State) :
    (∃ p, s.key (s.readV x).toNat = some p ∧ exec (.skpr x) s = .next (s.skipIf p)) ∨
    (16 ≤ (s.readV x).toNat ∧ exec (.skpr x) s = .next (s.raise .invalidKeyIndex)) := by
  rcases s.key_cases (s.readV x).toNat with ⟨h, hk⟩ | ⟨h, hk⟩
  · exact .inl ⟨_, hk, by simp [exec, execSkpr, State.selectedKey, hk]⟩
  · exact .inr ⟨h, by simp [exec, execSkpr, State.selectedKey, hk]⟩

/-- SKUP: skips on a released key, or fails on a key index above 15 (R201). -/
theorem exec_skup_cases (x : RegIdx) (s : State) :
    (∃ p, s.key (s.readV x).toNat = some p ∧ exec (.skup x) s = .next (s.skipIf !p)) ∨
    (16 ≤ (s.readV x).toNat ∧ exec (.skup x) s = .next (s.raise .invalidKeyIndex)) := by
  rcases s.key_cases (s.readV x).toNat with ⟨h, hk⟩ | ⟨h, hk⟩
  · exact .inl ⟨_, hk, by simp [exec, execSkup, State.selectedKey, hk]⟩
  · exact .inr ⟨h, by simp [exec, execSkup, State.selectedKey, hk]⟩

/-- KEY: stores the lowest pressed key, or rewinds (R203). -/
theorem exec_key_cases (x : RegIdx) (s : State) :
    (∃ k, k < 16 ∧ s.firstPressed = some k ∧ exec (.key x) s = .next (s.writeV x (BitVec.ofNat 8 k))) ∨
    (s.firstPressed = none ∧ exec (.key x) s = .next s.rewind) := by
  rcases s.firstPressed_cases with ⟨k, hk, h, -⟩ | ⟨h, -⟩
  · exact .inl ⟨k, hk, h, by simp [exec, execKey, h]⟩
  · exact .inr ⟨h, by simp [exec, execKey, h]⟩

/-- DRAW: the drawn canvas with its collision in `VF`, or a failed row read (R182). -/
theorem exec_draw_cases (x y : RegIdx) (n : Nibble) (s : State) :
    (∃ cv, s.drawRows (s.anchorColumn x) (s.anchorRow y) n.toNat 0 { disp := s.disp, collided := false } = some cv ∧
      exec (.draw x y n) s = .next { s.writeFlag cv.collided with disp := cv.disp, drawFlag := true }) ∨
    (s.drawRows (s.anchorColumn x) (s.anchorRow y) n.toNat 0 { disp := s.disp, collided := false } = none ∧
      exec (.draw x y n) s = .next (s.scrambleDisplay.raise .outOfBoundsAccess)) := by
  cases h : s.drawRows (s.anchorColumn x) (s.anchorRow y) n.toNat 0 { disp := s.disp, collided := false } with
  | some cv => exact .inl ⟨cv, rfl, by simp [exec, execDraw, h]⟩
  | none => exact .inr ⟨rfl, by simp [exec, execDraw, h]⟩

/-- Every instruction answers a next state: a failure is one too (R223, R226). -/
theorem exec_next (i : Instr) (s : State) : ∃ t, exec i s = .next t := by
  cases i with
  | rts => rcases exec_rts_cases s with ⟨_, h⟩ | ⟨_, _, _, h⟩ <;> exact ⟨_, h⟩
  | jsr nnn => rcases exec_jsr_cases nnn s with ⟨_, h⟩ | ⟨_, h⟩ <;> exact ⟨_, h⟩
  | skpr x => rcases exec_skpr_cases x s with ⟨_, _, h⟩ | ⟨_, h⟩ <;> exact ⟨_, h⟩
  | skup x => rcases exec_skup_cases x s with ⟨_, _, h⟩ | ⟨_, h⟩ <;> exact ⟨_, h⟩
  | key x => rcases exec_key_cases x s with ⟨_, _, _, h⟩ | ⟨_, h⟩ <;> exact ⟨_, h⟩
  | draw x y n => rcases exec_draw_cases x y n s with ⟨_, _, h⟩ | ⟨_, h⟩ <;> exact ⟨_, h⟩
  | _ => exact ⟨_, rfl⟩

/-- What a CYCLE can do (R228, R230): nothing on a halted core, a failed fetch, an unmatched word, or the execution of
the decoded instruction. -/
theorem cycle_cases (rnd : Byte) (s : State) :
    (s.halted = true ∧ cycle rnd s = .next s.haltedCycle) ∨
    (s.halted = false ∧ s.fetchWord = none ∧ cycle rnd s = .next ((s.beginCycle rnd).raise .outOfBoundsFetch)) ∨
    (∃ w r, s.halted = false ∧ s.fetchWord = some w ∧ decodeWord w = .error r ∧
      cycle rnd s = .next ((s.atExecute rnd w).raise .unimplementedOpcode)) ∨
    (∃ w i, s.halted = false ∧ s.fetchWord = some w ∧ decodeWord w = .ok i ∧
      cycle rnd s = exec i (s.atExecute rnd w)) := by
  cases hh : s.halted with
  | true => exact .inl ⟨rfl, by simp [cycle, hh]⟩
  | false =>
    refine .inr ?_
    cases hf : s.fetchWord with
    | none => exact .inl ⟨rfl, rfl, by simp [cycle, hh, hf]⟩
    | some w =>
      refine .inr ?_
      cases hd : decodeWord w with
      | error r => exact .inl ⟨w, r, rfl, rfl, hd, by simp [cycle, hh, hf, hd]⟩
      | ok i => exact .inr ⟨w, i, rfl, rfl, hd, by simp [cycle, hh, hf, hd]⟩

/-- Where a fetch succeeds and what it reads (R65). -/
theorem State.fetchWord_cases (s : State) :
    (s.pc.toNat ≤ 0xFFE ∧
      s.fetchWord = some (wordOfBytes (s.mem.read s.pc.toNat) (s.mem.read (s.pc.toNat + 1)))) ∨
    (0xFFE < s.pc.toNat ∧ s.fetchWord = none) := by
  by_cases h : s.pc.toNat > 0xFFE
  · exact .inr ⟨h, by simp [State.fetchWord, h]⟩
  · exact .inl ⟨by omega, by simp [State.fetchWord, h]⟩

/-- What the driver does next (R227, R236). -/
theorem State.driverTurn_cases (s : State) :
    (∃ c rest, s.drv.script = c :: rest ∧ (s.driverStopped && c.isCycle) = false ∧
      s.driverTurn = (some c, s.takeScripted rest)) ∨
    (∃ c rest, s.drv.script = c :: rest ∧ (s.driverStopped && c.isCycle) = true ∧
      s.driverTurn = (none, s.takeScripted rest)) ∨
    (s.drv.script = [] ∧ s.driverStopped = false ∧
      s.driverTurn = (some (.cycle (Config.freeRnd s.free)), s.drawFree)) ∨
    (s.drv.script = [] ∧ s.driverStopped = true ∧ s.driverTurn = (none, s)) := by
  cases hs : s.drv.script with
  | nil =>
    cases hd : s.driverStopped with
    | false => exact .inr (.inr (.inl ⟨rfl, rfl, by simp [State.driverTurn, hs, hd]⟩))
    | true => exact .inr (.inr (.inr ⟨rfl, rfl, by simp [State.driverTurn, hs, hd]⟩))
  | cons c rest =>
    cases hd : s.driverStopped && c.isCycle with
    | false => exact .inl ⟨c, rest, rfl, hd, by simp [State.driverTurn, hs, hd]⟩
    | true => exact .inr (.inl ⟨c, rest, rfl, hd, by simp [State.driverTurn, hs, hd]⟩)

/-- A step issues the driver's next command, or nothing. -/
theorem step_cases (s : State) :
    (∃ c s', s.driverTurn = (some c, s') ∧ step s = issue c s') ∨
    (∃ s', s.driverTurn = (none, s') ∧ step s = .next s') := by
  rcases h : s.driverTurn with ⟨_ | c, s'⟩
  · exact .inr ⟨s', rfl, by simp [step, h]⟩
  · exact .inl ⟨c, s', rfl, by simp [step, h]⟩

/-- Two bytes loaded at the program counter are the word the next fetch reads (R66, R73). -/
theorem State.fetchWord_load {s : State} (h : s.mem.wf = true) (hp : s.pc.toNat ≤ 0xFFE) (w : Word) :
    (s.loadBytes s.pc.toNat (bytesOfWord w)).fetchWord = some w := by
  have h1 : s.pc.toNat ≤ 0xFFF := by omega
  have h2 : s.pc.toNat + 1 ≤ 0xFFF := by omega
  have hm : (s.loadBytes s.pc.toNat (bytesOfWord w)).mem =
      (s.mem.write s.pc.toNat (highByte w)).write (s.pc.toNat + 1) (lowByte w) := by
    simp [bytesOfWord, State.loadBytes, State.memWrite, Config.lastAddress, h1, h2]
  have hw := Memory.wf_write (b := highByte w) h1 h
  have hn : ¬ s.pc.toNat > 0xFFE := by omega
  simp [State.fetchWord, hm, hn, Memory.read_write hw, Memory.read_write h]

/-- The word that `placeWord` stores is what the next fetch reads. -/
theorem State.fetchWord_placeWord {s : State} (h : s.mem.wf = true) (w : Word) :
    (s.placeWord w).fetchWord = some w := by
  refine State.fetchWord_load (s := s.readyToFetch) h ?_ w
  by_cases hp : s.pc.toNat > 0xFFE
  · simp [State.readyToFetch, hp, Config.programStart]
  · simpa [State.readyToFetch, hp] using Nat.not_lt.mp hp

/-- The very next step after `placeWord` runs the placed word's instruction, with a free random byte (log entry 10). -/
theorem step_placeWord {s : State} (h : s.mem.wf = true) {w : Word} {i : Instr} (hd : decodeWord w = .ok i) :
    step (s.placeWord w) =
      exec i ((s.placeWord w).drawFree.atExecute (Config.freeRnd s.free) w) := by
  have hscript : (s.placeWord w).drv.script = [] := by simp [State.placeWord, State.readyToFetch]
  have hhalt : (s.placeWord w).halted = false := by simp [State.placeWord, State.readyToFetch]
  have hfree : (s.placeWord w).free = s.free := by simp [State.placeWord, State.readyToFetch]
  have hstop : (s.placeWord w).driverStopped = false := by
    simp only [State.placeWord, State.driverStopped, State.loadBytes_fault, State.loadBytes_drv, State.readyToFetch]
    by_cases hp : s.drv.policy = .halt <;> by_cases hf : s.fault.map FaultRecord.kind = some .unimplementedOpcode <;>
      simp [hp, hf]
  have hfetch : (s.placeWord w).drawFree.fetchWord = some w := State.fetchWord_placeWord h w
  rcases (s.placeWord w).driverTurn_cases with ⟨c, r, hs, -⟩ | ⟨c, r, hs, -⟩ | ⟨-, -, ht⟩ | ⟨-, hd', -⟩
  · simp [hscript] at hs
  · simp [hscript] at hs
  · simp [step, ht, issue, cycle, hhalt, hfetch, hd, hfree]
  · simp [hstop] at hd'

end Sys2Proof.Machine
end

