-- ==== Sys2Proof/Laws/Frame.lean ====
section
/-! SUPPORT. The frame of each shared operation: what it may write, everything else kept. -/

namespace Sys2Proof.Machine

theorem frame_writeV (s : State) (x : RegIdx) (b : Byte) : Frame { v := [x] } s (s.writeV x b) where
  v r hr := s.readV_writeV_ne (fun e => hr (by simp [e])) b
  index _ := rfl
  pc _ := rfl
  stack _ := rfl
  disp _ _ _ := rfl
  dt _ := rfl
  st _ := rfl
  keys _ _ := rfl
  mem _ _ := rfl
  drawFlag _ := rfl
  halted _ := rfl
  fault _ := rfl
  result _ := rfl
  cycAddr _ := rfl
  cycWord _ := rfl
  cycRnd _ := rfl
  free _ := rfl
  shiftMode := rfl
  jumpMode := rfl
  subFlagMode := rfl
  drv := rfl

theorem frame_writeFlagThenV (s : State) (f : Bool) (x : RegIdx) (b : Byte) :
    Frame { v := [x, VF] } s (s.writeFlagThenV f x b) where
  v r hr := by
    have h1 : ¬ x = r := fun e => hr (by simp [e])
    have h2 : ¬ VF = r := fun e => hr (by simp [e])
    simp [State.readV_writeFlagThenV, h1, h2]
  index _ := rfl
  pc _ := rfl
  stack _ := rfl
  disp _ _ _ := rfl
  dt _ := rfl
  st _ := rfl
  keys _ _ := rfl
  mem _ _ := rfl
  drawFlag _ := rfl
  halted _ := rfl
  fault _ := rfl
  result _ := rfl
  cycAddr _ := rfl
  cycWord _ := rfl
  cycRnd _ := rfl
  free _ := rfl
  shiftMode := rfl
  jumpMode := rfl
  subFlagMode := rfl
  drv := rfl

/-- A frame for a state that differs in the listed parts only and keeps the general registers as data. -/
theorem frame_of_fields {w : Writes} {s t : State} (v : t.v = s.v) (index : w.index = false → t.index = s.index)
    (pc : w.pc = false → t.pc = s.pc) (stack : w.stack = false → t.stack = s.stack)
    (disp : w.disp = false → t.disp = s.disp) (dt : w.dt = false → t.dt = s.dt) (st : w.st = false → t.st = s.st)
    (keys : w.keys = false → t.keys = s.keys) (mem : w.mem = false → t.mem = s.mem)
    (drawFlag : w.drawFlag = false → t.drawFlag = s.drawFlag) (halted : w.status = false → t.halted = s.halted)
    (fault : w.status = false → t.fault = s.fault) (result : w.status = false → t.cyc.result = s.cyc.result)
    (cycAddr : w.cycInput = false → t.cyc.addr = s.cyc.addr) (cycWord : w.cycInput = false → t.cyc.word = s.cyc.word)
    (cycRnd : w.cycInput = false → t.cyc.rnd = s.cyc.rnd) (free : w.free = false → t.free = s.free)
    (shiftMode : t.shiftMode = s.shiftMode) (jumpMode : t.jumpMode = s.jumpMode)
    (subFlagMode : t.subFlagMode = s.subFlagMode) (drv : t.drv = s.drv) : Frame w s t where
  v r _ := State.readV_congr v r
  index := index
  pc := pc
  stack := stack
  disp h r c := State.pixel_congr (disp h) r c
  dt := dt
  st := st
  keys h k := State.key_congr (keys h) k
  mem h a := State.memRead_congr (mem h) a
  drawFlag := drawFlag
  halted := halted
  fault := fault
  result := result
  cycAddr := cycAddr
  cycWord := cycWord
  cycRnd := cycRnd
  free := free
  shiftMode := shiftMode
  jumpMode := jumpMode
  subFlagMode := subFlagMode
  drv := drv

theorem frame_setPc (s : State) (w : Word) : Frame { pc := true } s (s.setPc w) := by
  apply frame_of_fields <;> simp

theorem frame_skipIf (s : State) (c : Bool) : Frame { pc := true } s (s.skipIf c) := by
  cases c <;> apply frame_of_fields <;> simp [State.skipIf]

theorem frame_raise (s : State) (k : FailureKind) : Frame { status := true } s (s.raise k) := by
  apply frame_of_fields <;> simp

theorem raise_reports (s : State) (k : FailureKind) : Reports k s (s.raise k) := ⟨rfl, rfl, rfl⟩

theorem frame_scramble_raise (s : State) (k : FailureKind) :
    Frame { v := [VF], disp := true, status := true, free := true } s (s.scrambleDisplay.raise k) where
  v r hr := s.readV_writeV_ne (fun e => hr (by simp [← e])) _
  index _ := rfl
  pc _ := rfl
  stack _ := rfl
  disp h := by simp at h
  dt _ := rfl
  st _ := rfl
  keys _ _ := rfl
  mem _ _ := rfl
  drawFlag _ := rfl
  halted h := by simp at h
  fault h := by simp at h
  result h := by simp at h
  cycAddr _ := rfl
  cycWord _ := rfl
  cycRnd _ := rfl
  free h := by simp at h
  shiftMode := rfl
  jumpMode := rfl
  subFlagMode := rfl
  drv := rfl

theorem State.skipIf_pc (s : State) (c : Bool) : (s.skipIf c).pc = if c = true then s.pc + 2#16 else s.pc := by
  cases c <;> rfl

/-- `entering` is what the CYCLE's own operations build. -/
theorem State.atExecute_eq_entering (s : State) (rnd : Byte) (w : Word) : s.atExecute rnd w = s.entering rnd w := rfl

end Sys2Proof.Machine
end

