-- ==== Sys2Proof/Laws/PerInstr.lean ====
section
/-! SUPPORT. Per-instruction laws (LAWS.json): the encoder's word of every instruction is its row's pattern with the
instruction's operands in the row's free bits, so the word selects that row (30_encoding.md R93, R100). -/

namespace Sys2Proof.Laws

/-- Format A: pattern, free bits and operands (R93). -/
theorem formatA (f : Nibble) (nnn : Addr12) :
    ofFamilyAddress f nnn &&& 0xF000#16 = f.setWidth 16 <<< 12 ∧
    ofFamilyAddress f nnn = f.setWidth 16 <<< 12 ||| operandsA nnn ∧ operandsA nnn &&& 0xF000#16 = 0#16 := by
  simp only [ofFamilyAddress, operandsA]
  refine ⟨?_, ?_, ?_⟩ <;>
  · apply BitVec.eq_of_getLsbD_eq
    intro i hi
    simp only [BitVec.getLsbD_append, BitVec.getLsbD_and, BitVec.getLsbD_or, BitVec.getLsbD_shiftLeft,
      BitVec.getLsbD_setWidth]
    interval_cases i <;> simp

/-- Format XNN: pattern, free bits and operands (R93). -/
theorem formatXNN (f : Nibble) (x : RegIdx) (nn : Byte) :
    ofFamilyByte f x nn &&& 0xF000#16 = f.setWidth 16 <<< 12 ∧
    ofFamilyByte f x nn = f.setWidth 16 <<< 12 ||| operandsXNN x nn ∧ operandsXNN x nn &&& 0xF000#16 = 0#16 := by
  simp only [ofFamilyByte, operandsXNN]
  refine ⟨?_, ?_, ?_⟩ <;>
  · apply BitVec.eq_of_getLsbD_eq
    intro i hi
    simp only [BitVec.getLsbD_append, BitVec.getLsbD_and, BitVec.getLsbD_or, BitVec.getLsbD_shiftLeft,
      BitVec.getLsbD_setWidth]
    interval_cases i <;> simp

/-- Format X: pattern, free bits and operands (R93). -/
theorem formatX (f : Nibble) (x : RegIdx) (ss : Byte) :
    ofFamilyByte f x ss &&& 0xF0FF#16 = f.setWidth 16 <<< 12 ||| ss.setWidth 16 ∧
    ofFamilyByte f x ss = (f.setWidth 16 <<< 12 ||| ss.setWidth 16) ||| operandsX x ∧
    operandsX x &&& 0xF0FF#16 = 0#16 := by
  simp only [ofFamilyByte, operandsX]
  refine ⟨?_, ?_, ?_⟩ <;>
  · apply BitVec.eq_of_getLsbD_eq
    intro i hi
    simp only [BitVec.getLsbD_append, BitVec.getLsbD_and, BitVec.getLsbD_or, BitVec.getLsbD_shiftLeft,
      BitVec.getLsbD_setWidth]
    interval_cases i <;> simp

/-- Format XY: pattern, free bits and operands (R93). -/
theorem formatXY (f : Nibble) (x y : RegIdx) (s : Nibble) :
    ofNibbles f x y s &&& 0xF00F#16 = f.setWidth 16 <<< 12 ||| s.setWidth 16 ∧
    ofNibbles f x y s = (f.setWidth 16 <<< 12 ||| s.setWidth 16) ||| operandsXY x y ∧
    operandsXY x y &&& 0xF00F#16 = 0#16 := by
  simp only [ofNibbles, operandsXY]
  refine ⟨?_, ?_, ?_⟩ <;>
  · apply BitVec.eq_of_getLsbD_eq
    intro i hi
    simp only [BitVec.getLsbD_append, BitVec.getLsbD_and, BitVec.getLsbD_or, BitVec.getLsbD_shiftLeft,
      BitVec.getLsbD_setWidth]
    interval_cases i <;> simp

/-- Format XYN: pattern, free bits and operands (R93). -/
theorem formatXYN (f : Nibble) (x y : RegIdx) (n : Nibble) :
    ofNibbles f x y n &&& 0xF000#16 = f.setWidth 16 <<< 12 ∧
    ofNibbles f x y n = f.setWidth 16 <<< 12 ||| operandsXYN x y n ∧ operandsXYN x y n &&& 0xF000#16 = 0#16 := by
  simp only [ofNibbles, operandsXYN, operandsXY]
  refine ⟨?_, ?_, ?_⟩ <;>
  · apply BitVec.eq_of_getLsbD_eq
    intro i hi
    simp only [BitVec.getLsbD_append, BitVec.getLsbD_and, BitVec.getLsbD_or, BitVec.getLsbD_shiftLeft,
      BitVec.getLsbD_setWidth]
    interval_cases i <;> simp

namespace EncodesIntoOwnRow

/-- The instruction is well-formed, its word is its row's pattern with its operands, and selects its row. -/
def Statement (i : Instr) : Prop :=
  i.wellFormed = true ∧ encode i = i.row.pattern ||| i.operandBits ∧ i.row.selects (encode i) = true

/-- The shape shared by every constructor. -/
theorem of_format {i : Instr} {p : Word} (hp : i.row.pattern = p)
    (h : encode i &&& i.row.mask = p ∧ encode i = p ||| i.operandBits ∧ i.operandBits &&& i.row.mask = 0#16) :
    Statement i := by
  subst hp
  obtain ⟨h1, h2, h3⟩ := h
  exact ⟨by simp [Instr.wellFormed, Row.admits, h3], h2, by simp [Row.selects, h1]⟩

theorem cls : Statement .cls := by
  unfold Statement
  decide

theorem rts : Statement .rts := by
  unfold Statement
  decide

theorem jmp (nnn : Addr12) : Statement (.jmp nnn) :=
  of_format rfl (formatA 0x1#4 nnn)

theorem jsr (nnn : Addr12) : Statement (.jsr nnn) :=
  of_format rfl (formatA 0x2#4 nnn)

theorem skeqImm (x : RegIdx) (nn : Byte) : Statement (.skeqImm x nn) :=
  of_format rfl (formatXNN 0x3#4 x nn)

theorem skneImm (x : RegIdx) (nn : Byte) : Statement (.skneImm x nn) :=
  of_format rfl (formatXNN 0x4#4 x nn)

theorem skeqReg (x y : RegIdx) : Statement (.skeqReg x y) :=
  of_format rfl (formatXY 0x5#4 x y 0x0#4)

theorem movImm (x : RegIdx) (nn : Byte) : Statement (.movImm x nn) :=
  of_format rfl (formatXNN 0x6#4 x nn)

theorem addImm (x : RegIdx) (nn : Byte) : Statement (.addImm x nn) :=
  of_format rfl (formatXNN 0x7#4 x nn)

theorem movReg (x y : RegIdx) : Statement (.movReg x y) :=
  of_format rfl (formatXY 0x8#4 x y 0x0#4)

theorem orReg (x y : RegIdx) : Statement (.orReg x y) :=
  of_format rfl (formatXY 0x8#4 x y 0x1#4)

theorem andReg (x y : RegIdx) : Statement (.andReg x y) :=
  of_format rfl (formatXY 0x8#4 x y 0x2#4)

theorem xorReg (x y : RegIdx) : Statement (.xorReg x y) :=
  of_format rfl (formatXY 0x8#4 x y 0x3#4)

theorem addReg (x y : RegIdx) : Statement (.addReg x y) :=
  of_format rfl (formatXY 0x8#4 x y 0x4#4)

theorem subReg (x y : RegIdx) : Statement (.subReg x y) :=
  of_format rfl (formatXY 0x8#4 x y 0x5#4)

theorem shr (x y : RegIdx) : Statement (.shr x y) :=
  of_format rfl (formatXY 0x8#4 x y 0x6#4)

theorem rsb (x y : RegIdx) : Statement (.rsb x y) :=
  of_format rfl (formatXY 0x8#4 x y 0x7#4)

theorem shl (x y : RegIdx) : Statement (.shl x y) :=
  of_format rfl (formatXY 0x8#4 x y 0xE#4)

theorem skneReg (x y : RegIdx) : Statement (.skneReg x y) :=
  of_format rfl (formatXY 0x9#4 x y 0x0#4)

theorem mvi (nnn : Addr12) : Statement (.mvi nnn) :=
  of_format rfl (formatA 0xA#4 nnn)

theorem jmi (nnn : Addr12) : Statement (.jmi nnn) :=
  of_format rfl (formatA 0xB#4 nnn)

theorem rand (x : RegIdx) (nn : Byte) : Statement (.rand x nn) :=
  of_format rfl (formatXNN 0xC#4 x nn)

theorem draw (x y : RegIdx) (n : Nibble) : Statement (.draw x y n) :=
  of_format rfl (formatXYN 0xD#4 x y n)

theorem skpr (x : RegIdx) : Statement (.skpr x) :=
  of_format rfl (formatX 0xE#4 x 0x9E#8)

theorem skup (x : RegIdx) : Statement (.skup x) :=
  of_format rfl (formatX 0xE#4 x 0xA1#8)

theorem gdelay (x : RegIdx) : Statement (.gdelay x) :=
  of_format rfl (formatX 0xF#4 x 0x07#8)

theorem key (x : RegIdx) : Statement (.key x) :=
  of_format rfl (formatX 0xF#4 x 0x0A#8)

theorem sdelay (x : RegIdx) : Statement (.sdelay x) :=
  of_format rfl (formatX 0xF#4 x 0x15#8)

theorem ssound (x : RegIdx) : Statement (.ssound x) :=
  of_format rfl (formatX 0xF#4 x 0x18#8)

theorem adi (x : RegIdx) : Statement (.adi x) :=
  of_format rfl (formatX 0xF#4 x 0x1E#8)

end EncodesIntoOwnRow

end Sys2Proof.Laws
end

