-- ==== Sys2Proof/Tests/Slice0.lean ====
section
/-! SUPPORT. The model's own tests: expected values from the tables of spec/95_test_vectors.md and the examples of the
instruction rules (each test names its vector), the well-formedness smoke tests, and the witnesses of the obligations'
hypotheses. -/

namespace Sys2Proof.Tests

open Sys2Proof Sys2Proof.Machine

/-! ## Helpers -/

/-- The state a next outcome carries; the reset state for any other. -/
def after (o : Host.Outcome State Fault Refusal) : State :=
  match o with
  | .next t => t
  | .fault _ => State.reset
  | .refused _ => State.reset

/-- The reset state with general registers set. -/
def regs (l : List (RegIdx × Byte)) : State := l.foldl (fun s p => s.writeV p.1 p.2) State.reset

/-- One CYCLE with `rnd = 0xA7` of the word placed at `PC`. -/
def run (w : Word) (s : State) : State := after (cycle 0xA7#8 (s.loadBytes s.pc.toNat (bytesOfWord w)))

/-- A state with bytes at 0x300 and `I = 0x300`. -/
def sprite (bytes : List Byte) (s : State) : State := (s.loadBytes 0x300 bytes).writeIndex 0x300#16

/-- The reset state with the given keys pressed. -/
def pressed (ks : List Nat) (s : State) : State := ks.foldl (fun s k => s.keySet k true) s

/-- Kind, address and word of the last failure. -/
def faultOf (s : State) : Option (Nat × Word × Option Word) := s.fault.map fun f => (f.kind.code, f.addr, f.word)

/-! ## Well-formedness smoke tests: a pattern that sets a fixed bit of the row is refused, for every format -/

theorem smoke_format_Z : rowCls.admits 0x0001#16 = false := by decide
theorem smoke_format_A : rowJmp.admits 0x1000#16 = false := by decide
theorem smoke_format_XNN : rowSkeqImm.admits 0x8305#16 = false := by decide
theorem smoke_format_XY : rowAddReg.admits 0x0128#16 = false := by decide
theorem smoke_format_XYN : rowDraw.admits 0x2015#16 = false := by decide
theorem smoke_format_X : rowKey.admits 0x0110#16 = false := by decide
theorem smoke_wellFormed_admitted : (Instr.addReg 0xA#4 0xB#4).wellFormed = true := by decide
theorem smoke_memory_unsorted : Memory.wf [(0x201, 1#8), (0x200, 2#8)] = false := by decide
theorem smoke_memory_repeat : Memory.wf [(0x200, 1#8), (0x200, 2#8)] = false := by decide
theorem smoke_memory_unlisted_listed : Memory.wf [(0x200, 0#8)] = false := by decide
theorem smoke_memory_outside : Memory.wf [(0x1000, 1#8)] = false := by decide

/-! ## Decoding: one word per constructor, written out from the patterns of R100 -/

theorem test_decode_control : decodeWord 0x00EE#16 = .ok .rts ∧ decodeWord 0x1234#16 = .ok (.jmp 0x234#12) ∧
    decodeWord 0x2300#16 = .ok (.jsr 0x300#12) ∧ decodeWord 0x3342#16 = .ok (.skeqImm 0x3#4 0x42#8) ∧
    decodeWord 0x4342#16 = .ok (.skneImm 0x3#4 0x42#8) ∧ decodeWord 0x5120#16 = .ok (.skeqReg 0x1#4 0x2#4) ∧
    decodeWord 0x9120#16 = .ok (.skneReg 0x1#4 0x2#4) ∧ decodeWord 0xB310#16 = .ok (.jmi 0x310#12) := by decide

theorem test_decode_alu_immediate : decodeWord 0x6FAA#16 = .ok (.movImm 0xF#4 0xAA#8) ∧
    decodeWord 0x7203#16 = .ok (.addImm 0x2#4 0x03#8) ∧ decodeWord 0xC40F#16 = .ok (.rand 0x4#4 0x0F#8) := by decide

theorem test_decode_alu_register : decodeWord 0x8120#16 = .ok (.movReg 0x1#4 0x2#4) ∧
    decodeWord 0x8121#16 = .ok (.orReg 0x1#4 0x2#4) ∧ decodeWord 0x8122#16 = .ok (.andReg 0x1#4 0x2#4) ∧
    decodeWord 0x8123#16 = .ok (.xorReg 0x1#4 0x2#4) ∧ decodeWord 0x8AB4#16 = .ok (.addReg 0xA#4 0xB#4) ∧
    decodeWord 0x8125#16 = .ok (.subReg 0x1#4 0x2#4) ∧ decodeWord 0x8126#16 = .ok (.shr 0x1#4 0x2#4) ∧
    decodeWord 0x8127#16 = .ok (.rsb 0x1#4 0x2#4) ∧ decodeWord 0x812E#16 = .ok (.shl 0x1#4 0x2#4) := by decide

theorem test_decode_index_display : decodeWord 0xA123#16 = .ok (.mvi 0x123#12) ∧
    decodeWord 0xF21E#16 = .ok (.adi 0x2#4) ∧ decodeWord 0x00E0#16 = .ok .cls ∧
    decodeWord 0xD125#16 = .ok (.draw 0x1#4 0x2#4 0x5#4) := by decide

theorem test_decode_keypad_timer : decodeWord 0xE29E#16 = .ok (.skpr 0x2#4) ∧ decodeWord 0xE2A1#16 = .ok (.skup 0x2#4) ∧
    decodeWord 0xF307#16 = .ok (.gdelay 0x3#4) ∧ decodeWord 0xF20A#16 = .ok (.key 0x2#4) ∧
    decodeWord 0xF415#16 = .ok (.sdelay 0x4#4) ∧ decodeWord 0xF318#16 = .ok (.ssound 0x3#4) := by decide

/-- The unmatched words of 95_test_vectors.md section 2.1, and one more of each family. -/
theorem test_decode_unmatched :
    ([0x0123#16, 0x00FF#16, 0x0000#16, 0x5121#16, 0x9121#16, 0x8008#16, 0x800D#16, 0x800F#16, 0xE09F#16, 0xE000#16,
      0xF029#16, 0xF033#16, 0xF055#16, 0xF065#16].all fun w =>
      decide (decodeWord w = .error (.unimplementedOpcode w))) = true := by decide

theorem test_decode_truncated : decode [0x12#8] = .error .truncated := by decide
theorem test_decode_rest : decode [0x12#8, 0x34#8, 0x56#8] = .ok (.jmp 0x234#12, [0x56#8]) := by decide
theorem test_decodeTableWord : decodeTableWord 16 0xD125 = some (.draw 0x1#4 0x2#4 0x5#4) := by decide
theorem test_encode : encode (.draw 0x1#4 0x2#4 0x5#4) = 0xD125#16 ∧ encode (.skup 0x2#4) = 0xE2A1#16 ∧
    encode (.jmi 0x310#12) = 0xB310#16 := by decide

/-! ## Fetch, cycle and step -/

/-- M3: a word at 0xFFE runs and `PC` becomes 0x1000. -/
theorem test_M3 : (fun t : State => (t.readV 0x0#4, t.pc, t.halted)) (run 0x6001#16 (State.reset.setPc 0xFFE#16)) =
    (0x01#8, 0x1000#16, false) := by decide

/-- M4: a fetch at 0xFFF fails. -/
theorem test_M4 : (fun t : State => (faultOf t, t.halted, t.pc)) (after (cycle 0#8 (State.reset.setPc 0xFFF#16))) =
    (some (1, 0xFFF#16, none), true, 0xFFF#16) := by decide

/-- M9: an odd address is fetched. -/
theorem test_M9 : (fun t : State => (t.readV 0xA#4, t.pc)) (run 0x6A07#16 (State.reset.setPc 0x201#16)) =
    (0x07#8, 0x203#16) := by decide

/-- M7: LOAD drops what lies above 0xFFF. -/
theorem test_M7 : (fun t : State => (t.memRead 0xFFE, t.memRead 0xFFF, t.memRead 0x1000))
    (State.reset.load 0xFFE [1#8, 2#8, 3#8, 4#8]) = (some 1#8, some 2#8, none) := by decide

/-- P8: an unmatched word is reported, does not halt, and leaves `PC = a + 2`. -/
theorem test_P8 : (fun t : State => (faultOf t, t.halted, t.pc)) (run 0xF033#16 State.reset) =
    (some (5, 0x200#16, some 0xF033#16), false, 0x202#16) := by decide

/-- T8: a halted core returns its fault again. -/
theorem test_T8 : (fun t : State => (t.cyc.result, t.pc)) (after (cycle 0#8 (run 0x00EE#16 State.reset))) =
    (some .stackUnderflow, 0x202#16) := by decide

/-- The next step after `withFetchWord` runs the word. -/
theorem test_withFetchWord : (after (step (State.reset.withFetchWord 16 0x6005))).readV 0x0#4 = 0x05#8 := by decide

/-- A boot script runs command by command (R262). -/
theorem test_boot : (after (Host.Core.run core 4
      { State.reset with
        drv := { script := bootScript CreateParams.default [0x60#8, 0x05#8] 0x050 [0xF0#8] ++ [.cycle 0#8], policy := .skip } }
      )).readV 0x0#4 = 0x05#8 := by decide

/-! ## Control transfer -/

theorem test_C1_jmp : (run 0x1234#16 State.reset).pc = 0x234#16 := by decide
theorem test_C4_jsr : (fun t : State => (t.stack, t.pc)) (run 0x2300#16 State.reset) = ([0x202#16], 0x300#16) := by decide
theorem test_C7_jsr_overflow :
    (fun t : State => (faultOf t, t.halted, t.pc, t.stack.length))
      (run 0x2300#16 { State.reset with stack := List.replicate 16 0x202#16 }) =
    (some (2, 0x200#16, some 0x2300#16), true, 0x202#16, 16) := by decide
theorem test_C5_rts : (fun t : State => (t.stack, t.pc)) (run 0x00EE#16 { State.reset with stack := [0x202#16] }) =
    ([], 0x202#16) := by decide
theorem test_C6_rts_underflow : (fun t : State => (faultOf t, t.halted, t.pc)) (run 0x00EE#16 State.reset) =
    (some (3, 0x200#16, some 0x00EE#16), true, 0x202#16) := by decide
theorem test_C9_skeqImm : (run 0x3342#16 (regs [(0x3#4, 0x42#8)])).pc = 0x204#16 := by decide
theorem test_C10_skeqImm : (run 0x3342#16 (regs [(0x3#4, 0x41#8)])).pc = 0x202#16 := by decide
theorem test_C11_skneImm : (run 0x4342#16 (regs [(0x3#4, 0x41#8)])).pc = 0x204#16 := by decide
theorem test_C12_skneImm : (run 0x4342#16 (regs [(0x3#4, 0x42#8)])).pc = 0x202#16 := by decide
theorem test_C13_skeqReg : (run 0x5120#16 (regs [(0x1#4, 0x10#8), (0x2#4, 0x10#8)])).pc = 0x204#16 := by decide
theorem test_C14_skeqReg : (run 0x5120#16 (regs [(0x1#4, 0x10#8), (0x2#4, 0x11#8)])).pc = 0x202#16 := by decide
theorem test_C15_skneReg : (run 0x9120#16 (regs [(0x1#4, 0x10#8), (0x2#4, 0x11#8)])).pc = 0x204#16 := by decide
theorem test_C16_skneReg : (run 0x9120#16 (regs [(0x1#4, 0x10#8), (0x2#4, 0x10#8)])).pc = 0x202#16 := by decide
theorem test_C20_jmi : (run 0xBFFF#16 (regs [(0x0#4, 0xFF#8)])).pc = 0x10FE#16 := by decide
theorem test_C21_jmi_vx :
    (run 0xB310#16 { regs [(0x3#4, 0x05#8), (0x0#4, 0x77#8)] with jumpMode := .vx }).pc = 0x315#16 := by decide

/-! ## Register moves, logic and arithmetic -/

theorem test_A2_movImm : (run 0x6FAA#16 State.reset).readV VF = 0xAA#8 := by decide
theorem test_A4_addImm : (fun t : State => (t.readV 0x3#4, t.readV VF)) (run 0x7301#16 (regs [(0x3#4, 0xFF#8), (VF, 0x55#8)])) =
    (0x00#8, 0x55#8) := by decide
theorem test_A5_movReg : (run 0x8010#16 (regs [(0x1#4, 0x42#8)])).readV 0x0#4 = 0x42#8 := by decide
theorem test_A6_or : (fun t : State => (t.readV 0x0#4, t.readV VF))
    (run 0x8011#16 (regs [(0x0#4, 0xF0#8), (0x1#4, 0x3C#8), (VF, 0x77#8)])) = (0xFC#8, 0x77#8) := by decide
theorem test_A7_and : (run 0x8012#16 (regs [(0x0#4, 0xF0#8), (0x1#4, 0x3C#8)])).readV 0x0#4 = 0x30#8 := by decide
theorem test_A8_xor : (run 0x8013#16 (regs [(0x0#4, 0xF0#8), (0x1#4, 0x3C#8)])).readV 0x0#4 = 0xCC#8 := by decide
theorem test_A10_add : (fun t : State => (t.readV 0x0#4, t.readV VF)) (run 0x8014#16 (regs [(0x0#4, 0xFF#8), (0x1#4, 0x01#8)])) =
    (0x00#8, 0x01#8) := by decide
theorem test_A14_add_vf : (run 0x8F24#16 (regs [(VF, 0xFF#8), (0x2#4, 0x02#8)])).readV VF = 0x01#8 := by decide
theorem test_A18_A19_sub : (fun t : State => (t.readV 0x0#4, t.readV VF))
      (run 0x8015#16 (regs [(0x0#4, 0x03#8), (0x1#4, 0x05#8)])) = (0xFE#8, 0x00#8) ∧
    (run 0x8015#16 (regs [(0x0#4, 0x07#8), (0x1#4, 0x07#8)])).readV VF = 0x01#8 := by decide
theorem test_A25_rsb : (fun t : State => (t.readV 0x0#4, t.readV VF)) (run 0x8017#16 (regs [(0x0#4, 0x03#8), (0x1#4, 0x05#8)])) =
    (0x02#8, 0x01#8) := by decide
theorem test_A27_rsb_vf : (run 0x8F17#16 (regs [(VF, 0x03#8), (0x1#4, 0x05#8)])).readV VF = 0x02#8 := by decide
theorem test_A28_shr : (fun t : State => (t.readV 0x0#4, t.readV VF)) (run 0x8016#16 (regs [(0x0#4, 0x03#8), (0x1#4, 0x08#8)])) =
    (0x04#8, 0x01#8) := by decide
theorem test_A31_shr_in_place :
    (run 0x8F16#16 { regs [(VF, 0x03#8), (0x1#4, 0xFF#8)] with shiftMode := .inPlace }).readV VF = 0x01#8 := by decide
theorem test_A33_shl : (fun t : State => (t.readV 0x0#4, t.readV VF)) (run 0x801E#16 (regs [(0x0#4, 0x81#8), (0x1#4, 0x41#8)])) =
    (0x82#8, 0x01#8) := by decide
theorem test_A34_shl_in_place : (fun t : State => (t.readV 0x0#4, t.readV VF))
    (run 0x801E#16 { regs [(0x0#4, 0x81#8), (0x1#4, 0x41#8)] with shiftMode := .inPlace }) = (0x02#8, 0x01#8) := by decide
theorem test_A22_sub_legacy : (fun t : State => (t.readV 0x0#4, t.readV VF))
    (run 0x8015#16 { regs [(0x0#4, 0x05#8), (0x1#4, 0x03#8)] with subFlagMode := .legacyZero }) = (0x02#8, 0x00#8) := by decide
theorem test_A37_rand : (run 0xC40F#16 State.reset).readV 0x4#4 = 0x07#8 := by decide

/-! ## Index register -/

theorem test_X1_mvi : (run 0xA123#16 State.reset).index = 0x123#16 := by decide
theorem test_X3_adi : (fun t : State => (t.index, t.readV VF)) (run 0xF01E#16 ((regs [(0x0#4, 0x01#8)]).writeIndex 0xFFF#16)) =
    (0x000#16, 0x01#8) := by decide
theorem test_X5_adi_vf : (fun t : State => (t.index, t.readV VF)) (run 0xFF1E#16 ((regs [(VF, 0x20#8)]).writeIndex 0xFF0#16)) =
    (0x010#16, 0x01#8) := by decide

/-! ## Display -/

theorem test_G1_cls : (fun t : State => (t.pixel 0 3, t.drawFlag)) (run 0x00E0#16 (run 0xD011#16 (sprite [0xFF#8] State.reset))) =
    (some false, true) := by decide
theorem test_G2_draw_clip : (fun t : State => (t.pixel 0 61, t.pixel 0 62, t.pixel 0 63, t.pixel 0 0, t.pixel 1 0, t.readV VF))
    (run 0xD011#16 (sprite [0xFF#8] (regs [(0x0#4, 62#8)]))) =
    (some false, some true, some true, some false, some false, 0x00#8) := by decide
theorem test_G8_draw_beyond_memory : (fun t : State => (faultOf t, t.halted, t.pc))
    (run 0xD012#16 (State.reset.writeIndex 0xFFF#16)) = (some (6, 0x200#16, some 0xD012#16), true, 0x202#16) := by decide

/-! ## Keypad and timers -/

theorem test_K2_skpr : (run 0xE09E#16 (pressed [5] (regs [(0x0#4, 5#8)]))).pc = 0x204#16 := by decide
theorem test_K6_skpr_index : (fun t : State => (faultOf t, t.halted, t.pc)) (run 0xE09E#16 (regs [(0x0#4, 0x10#8)])) =
    (some (7, 0x200#16, some 0xE09E#16), true, 0x202#16) := by decide
theorem test_K3_skup : (run 0xE0A1#16 (regs [(0x0#4, 5#8)])).pc = 0x204#16 := by decide
theorem test_K5_skup_index : (fun t : State => (faultOf t, t.halted, t.pc)) (run 0xE0A1#16 (regs [(0x0#4, 0x10#8)])) =
    (some (7, 0x200#16, some 0xE0A1#16), true, 0x202#16) := by decide
theorem test_K7_key : (fun t : State => (t.readV 0x2#4, t.pc)) (run 0xF20A#16 (pressed [7, 3] State.reset)) =
    (0x03#8, 0x202#16) := by decide
theorem test_K8_key_waits : (run 0xF20A#16 State.reset).pc = 0x200#16 := by decide
theorem test_K10_gdelay : (fun t : State => (t.readV 0x3#4, t.dt)) (run 0xF307#16 (State.reset.writeDt 0x3C#8)) =
    (0x3C#8, 0x3C#8) := by decide
theorem test_K11_sdelay : (fun t : State => (t.dt, t.st)) (run 0xF415#16 (regs [(0x4#4, 0x10#8)])) = (0x10#8, 0x00#8) := by decide
theorem test_K13_ssound : (fun t : State => (t.dt, t.st)) (run 0xF418#16 (regs [(0x4#4, 0xFF#8)])) = (0x00#8, 0xFF#8) := by decide

/-! ## Commands -/

theorem test_T1_tick : (fun t : State => (t.dt, t.st)) (State.reset.writeDt 2#8).tick = (1#8, 0#8) := by decide
theorem test_T6_keySet : (fun t : State => (t.key 5, t.key 6)) (State.reset.keySet 5 true) = (some true, some false) := by decide
theorem test_T7_keySet : State.reset.keySet 16 true = State.reset := by decide
theorem test_create : (fun t : State => (t.index, t.dt, t.memRead 1, t.jumpMode))
    (State.reset.create { CreateParams.default with iInit := 0xABC#12, dtInit := 9#8, memInit := [1#8, 2#8], jumpMode := .vx }) =
    (0xABC#16, 9#8, some 2#8, .vx) := by decide

/-! ## Witnesses: states and operands that meet the obligations' hypotheses -/

/-- A core halted by RTS on an empty stack. -/
def haltedState : State := run 0x00EE#16 State.reset

theorem witness_DecodeUndoesEncode : (Instr.skup 0xF#4).wellFormed = true := by decide
theorem witness_EncodeUndoesDecode : decode [0xE0#8, 0xA1#8, 0x07#8] = .ok (.skup 0x0#4, [0x07#8]) := by decide
theorem witness_DecoderFollowsOpcodeMap_rows :
    rowShl ∈ opcodeTable ∧ rowShl.selects 0x812E#16 = true ∧ decodeWord 0x812E#16 = .ok (.shl 0x1#4 0x2#4) := by decide
theorem witness_DecoderFollowsOpcodeMap_unmatched : ∀ r ∈ opcodeTable, r.selects 0x812F#16 = false := by decide
theorem witness_StepRunsDecodedInstruction_unscripted :
    (fun s : State => (s.halted, s.memRead s.pc.toNat, s.memRead (s.pc.toNat + 1), s.drv.script, s.driverStopped))
      (State.reset.load 0x200 [0x60#8, 0x05#8]) = (false, some 0x60#8, some 0x05#8, [], false) ∧
    decode [0x60#8, 0x05#8] = .ok (.movImm 0x0#4 0x05#8, []) := by decide
theorem witness_StepRunsDecodedInstruction_scripted :
    (fun s : State => (s.halted, s.memRead s.pc.toNat, s.memRead (s.pc.toNat + 1), s.drv.script, s.driverStopped))
      { State.reset.load 0xFFE [0x60#8, 0x05#8] with
        pc := 0xFFE#16, drv := { script := [.cycle 7#8, .tick], policy := .halt } } =
    (false, some 0x60#8, some 0x05#8, [.cycle 7#8, .tick], false) := by decide
theorem witness_StepIssuesScriptedCommand_withheld :
    (fun s : State => (s.drv.script, s.drv.policy, s.fault.map FaultRecord.kind))
      { run 0xF033#16 State.reset with drv := { script := [.cycle 0#8, .tick], policy := .halt } } =
    ([.cycle 0#8, .tick], .halt, some .unimplementedOpcode) ∧ (Command.cycle 0#8).isCycle = true := by decide
theorem witness_StepIssuesScriptedCommand_issued :
    (fun s : State => (s.drv.script, s.drv.policy, s.fault.map FaultRecord.kind))
      { run 0xF033#16 State.reset with drv := { script := [.tick], policy := .halt } } =
    ([.tick], .halt, some .unimplementedOpcode) ∧ Command.tick.isCycle = false := by decide
theorem witness_StepIssuesScriptedCommand_empty_stopped :
    (fun s : State => (s.drv.script, s.drv.policy, s.fault.map FaultRecord.kind))
      { run 0xF033#16 State.reset with drv := { script := [], policy := .halt } } =
    ([], .halt, some .unimplementedOpcode) := by decide
theorem witness_StepIssuesScriptedCommand_empty_issued :
    (fun s : State => (s.drv.script, s.drv.policy, s.fault.map FaultRecord.kind))
      { run 0xF033#16 State.reset with drv := { script := [], policy := .skip } } =
    ([], .skip, some .unimplementedOpcode) := by decide
theorem witness_LoadedWordIsFetched :
    (fun s : State => (s.mem.wf, s.halted, decide (s.pc.toNat ≤ 0xFFE))) (State.reset.setPc 0xFFE#16) = (true, false, true) ∧
    decodeWord (wordOfBytes 0x60#8 0x05#8) = .ok (.movImm 0x0#4 0x05#8) := by decide
theorem witness_FetchBeyondMemoryHalts :
    (State.reset.setPc 0xFFF#16).halted = false ∧ 0xFFF < (State.reset.setPc 0xFFF#16).pc.toNat + 1 ∧
    0xFFE < (State.reset.setPc 0xFFF#16).pc.toNat := by decide
theorem witness_UnmatchedWordReported :
    (State.reset.load 0x200 [0xF0#8, 0x33#8]).halted = false ∧
    (State.reset.load 0x200 [0xF0#8, 0x33#8]).fetchWord = some 0xF033#16 ∧
    ∀ r ∈ opcodeTable, r.selects 0xF033#16 = false := by decide
theorem witness_HaltedCycleChangesNothing : haltedState.halted = true ∧ haltedState.Inv := by
  refine ⟨by decide, ?_⟩
  constructor
  · decide
  · decide
  · decide
  · decide
  · exact fun w hw => absurd hw (by rw [show haltedState.stack = [] by decide]; exact List.not_mem_nil)
  · exact ⟨fun _ => ⟨⟨.stackUnderflow, 0x200#16, some 0x00EE#16⟩, by decide, rfl⟩, fun _ => by decide⟩
  · intro f hf
    rw [show haltedState.fault = some ⟨.stackUnderflow, 0x200#16, some 0x00EE#16⟩ by decide] at hf
    cases hf
    decide
  · intro f hf
    rw [show haltedState.fault = some ⟨.stackUnderflow, 0x200#16, some 0x00EE#16⟩ by decide] at hf
    cases hf
    decide
  · exact fun _ => by decide
theorem witness_OnlyCreateLeavesHalted :
    haltedState.halted = true ∧ haltedState.drv.script = [] ∧ ∃ t, step haltedState = .next t :=
  ⟨by decide, by decide, _, rfl⟩
theorem witness_CycleReportsOneResult_ok :
    (State.reset.load 0x200 [0x60#8, 0x05#8]).halted = false ∧
    ∃ t, cycle 0#8 (State.reset.load 0x200 [0x60#8, 0x05#8]) = .next t ∧ t.cyc.result = none :=
  ⟨by decide, _, rfl, by decide⟩
theorem witness_CycleReportsOneResult_failures :
    (∃ t, cycle 0#8 (State.reset.setPc 0xFFF#16) = .next t ∧ t.cyc.result = some .outOfBoundsFetch) ∧
    (∃ t, cycle 0#8 (State.reset.load 0x200 [0x00#8, 0xEE#8]) = .next t ∧ t.cyc.result = some .stackUnderflow) :=
  ⟨⟨_, rfl, by decide⟩, ⟨_, rfl, by decide⟩⟩
theorem witness_OtherInstructionsNeverFail : (Instr.key 0x0#4).canFail = false := by decide
theorem witness_GeneralRegisterWriters :
    (∃ t, exec (.addReg 0x1#4 0x2#4) State.reset = .next t) ∧ (0x3#4 : RegIdx) ∉ (Instr.addReg 0x1#4 0x2#4).generalWrites ∧
    (∃ t, issue .tick State.reset = .next t) ∧ (∃ t, issue (.keySet 15 true) State.reset = .next t) ∧
    (∃ t, issue (.load 0xFFF [1#8, 2#8]) State.reset = .next t) :=
  ⟨⟨_, rfl⟩, by decide, ⟨_, rfl⟩, ⟨_, rfl⟩, ⟨_, rfl⟩⟩
theorem witness_MemoryWrittenOnlyByLoad : State.reset.drv.script = [] ∧ ∃ t, step State.reset = .next t :=
  ⟨rfl, _, rfl⟩
theorem witness_DeviceAndIndexWriters : ¬ (Instr.mvi 0xFFF#12).writesDisplay ∧
    (∃ t, exec (.mvi 0xFFF#12) State.reset = .next t) ∧ (∃ t, issue .tick State.reset = .next t) ∧
    (∃ t, issue (.keySet 15 true) State.reset = .next t) ∧ (∃ t, issue (.load 0xFFF [1#8, 2#8]) State.reset = .next t) :=
  ⟨by simp [Instr.writesDisplay], ⟨_, rfl⟩, ⟨_, rfl⟩, ⟨_, rfl⟩, ⟨_, rfl⟩⟩
theorem witness_ConfigurationFixedAtCreate :
    ∃ t, step { State.reset with drv := { script := [.tick], policy := .skip }, shiftMode := .inPlace } = .next t := ⟨_, rfl⟩
theorem witness_OnlyRandUsesRandomByte : (∀ x nn, Instr.gdelay 0x1#4 ≠ .rand x nn) ∧
    ∃ t, exec (.gdelay 0x1#4) State.reset = .next t :=
  ⟨by simp, _, rfl⟩
theorem witness_DrawFlagMarksDisplayInstructions :
    ∃ t, cycle 0#8 (State.reset.load 0x200 [0x00#8, 0xE0#8]) = .next t ∧ t.drawFlag = true := ⟨_, rfl, by decide⟩
theorem witness_flag_register_not_destination : (0xE#4 : RegIdx) ≠ VF ∧ (0x1#4 : RegIdx) ≠ 0x2#4 ∧ (0x2#4 : RegIdx) ≠ VF := by
  decide
theorem witness_sub_modes : State.reset.subFlagMode = .corrected ∧
    ({ State.reset with subFlagMode := .legacyZero } : State).subFlagMode = .legacyZero := by decide
theorem witness_shift_modes : State.reset.shiftMode = .vyCopy ∧
    ({ State.reset with shiftMode := .inPlace } : State).shiftMode = .inPlace := by decide
theorem witness_jump_modes : State.reset.jumpMode = .v0 ∧
    ({ State.reset with jumpMode := .vx } : State).jumpMode = .vx := by decide
theorem witness_CallPushesReturnAddress :
    ({ State.reset with stack := List.replicate 15 0x202#16 } : State).stack.length < 16 ∧
    16 ≤ ({ State.reset with stack := List.replicate 16 0x202#16 } : State).stack.length := by decide
theorem witness_ReturnPopsIntoPc :
    ({ State.reset with stack := [0x1000#16, 0x002#16] } : State).stack = 0x1000#16 :: [0x002#16] ∧
    State.reset.stack = [] := by decide
theorem witness_CallThenReturnLandsAfterCall : State.reset.stack.length < 16 := by decide

/-- The last readable row of a sprite: `I = 0xFFE` with two rows. -/
theorem witness_DrawXorsSprite : (State.reset.writeIndex 0xFFE#16).spriteReadable 0x1#4 0x2#4 := by
  intro r hr _
  have h : (State.reset.writeIndex 0xFFE#16).index.toNat = 0xFFE := by decide
  have hn : (0x2#4 : Nibble).toNat = 2 := rfl
  omega
theorem witness_DrawXorsSprite_collision :
    (run 0xD011#16 (sprite [0xFF#8] State.reset)).pixel 0 0 = some true ∧
    (run 0xD011#16 (sprite [0xFF#8] State.reset)).spritePixel 0x0#4 0x1#4 0x1#4 0 0 = true := by decide
theorem witness_DrawXorsSprite_no_collision :
    ¬ ∃ r c : Nat, State.reset.pixel r c = some true ∧ State.reset.spritePixel 0x0#4 0x1#4 0x0#4 r c = true := by
  rintro ⟨r, c, -, h⟩
  simp only [State.spritePixel, Bool.and_eq_true, decide_eq_true_eq] at h
  have hn : (0x0#4 : Nibble).toNat = 0 := rfl
  omega
theorem witness_DrawBeyondMemoryFails : ¬ (State.reset.writeIndex 0xFFF#16).spriteReadable 0x1#4 0x2#4 := by
  intro h
  exact absurd (h 1 (by decide) (by decide)) (by decide)
theorem witness_DrawTwiceRestoresDisplay :
    (sprite [0xFF#8] State.reset).spriteReadable 0x1#4 0x1#4 ∧
    ∃ t, exec (.draw 0x0#4 0x1#4 0x1#4) (sprite [0xFF#8] State.reset) = .next t ∧
      (t.readV 0x0#4).toNat % 64 = ((sprite [0xFF#8] State.reset).readV 0x0#4).toNat % 64 ∧
      (t.readV 0x1#4).toNat % 32 = ((sprite [0xFF#8] State.reset).readV 0x1#4).toNat % 32 := by
  refine ⟨fun r hr _ => ?_, _, rfl, by decide, by decide⟩
  have h : (sprite [0xFF#8] State.reset).index.toNat = 0x300 := by decide
  have hn : (0x1#4 : Nibble).toNat = 1 := rfl
  omega
theorem witness_KeySkipsFollowKeypad :
    (pressed [15] (regs [(0x0#4, 15#8)])).key ((pressed [15] (regs [(0x0#4, 15#8)])).readV 0x0#4).toNat = some true ∧
    State.reset.key (State.reset.readV 0x0#4).toNat = some false := by decide
theorem witness_KeyIndexAboveFifteenFails : 15 < ((regs [(0x0#4, 16#8)]).readV 0x0#4).toNat := by decide
theorem witness_KeyStoresLowestPressed : (pressed [15, 7] State.reset).key 7 = some true ∧
    ∀ j : Nat, j < 7 → (pressed [15, 7] State.reset).key j = some false := by decide
theorem witness_no_key_pressed : ∀ k : Nat, State.reset.key k ≠ some true := by
  intro k
  by_cases h : k < 16
  · simp [State.key, State.reset, h]
  · simp [State.key, h]
theorem witness_KeyWaitsInPlace : (State.reset.load 0x200 [0xF2#8, 0x0A#8]).halted = false ∧
    (State.reset.load 0x200 [0xF2#8, 0x0A#8]).fetchWord = some (ofFamilyByte 0xF#4 0x2#4 0x0A#8) ∧
    (State.reset.load 0x200 [0xF2#8, 0x0A#8]).keys = State.reset.keys := by decide
theorem witness_KeySetWritesOneKey : (15 ≤ 15 ∧ 15 < 16) := by decide
theorem witness_LoadWritesItsRange : State.reset.mem.wf = true ∧
    (0xFFE ≤ 0xFFF ∧ 0xFFF < 0xFFE + [1#8, 2#8, 3#8].length ∧ 0xFFF ≤ 0xFFF) ∧
    ¬ (0xFFE ≤ 0x1000 ∧ 0x1000 < 0xFFE + [1#8, 2#8, 3#8].length ∧ 0x1000 ≤ 0xFFF) := by decide
theorem witness_CreateSetsEveryElement :
    ({ CreateParams.default with memInit := List.replicate 4096 0x5A#8 } : CreateParams).memInit.length = 4096 :=
  List.length_replicate
theorem witness_SelfJumpLeavesState : (State.reset.load 0x200 [0x12#8, 0x00#8]).halted = false ∧
    (State.reset.load 0x200 [0x12#8, 0x00#8]).fetchWord = some (0x1000#16 ||| (State.reset.load 0x200 [0x12#8, 0x00#8]).pc) := by
  decide
theorem witness_CreateEstablishesInvariant : ∃ t, issue (.create CreateParams.default) haltedState = .next t := ⟨_, rfl⟩
theorem witness_StepKeepsInvariant : haltedState.Inv ∧ ∃ t, step haltedState = .next t :=
  ⟨witness_HaltedCycleChangesNothing.2, _, rfl⟩

end Sys2Proof.Tests
end

/-! ## State family: the frame of every instruction (10_state.md R20 to R36) -/

namespace Sys2Proof

/-- The parts of the state an instruction may write, failing or not; every other part it keeps (`exec_frame`). -/
def Instr.writes (i : Instr) : Machine.Writes :=
  match i with
  | .cls => { v := i.generalWrites, disp := true, drawFlag := true }
  | .draw _ _ _ => { v := i.generalWrites, disp := true, drawFlag := true, status := true, free := true }
  | .rts | .jsr _ => { v := i.generalWrites, pc := true, stack := true, status := true }
  | .skpr _ | .skup _ => { v := i.generalWrites, pc := true, status := true }
  | .jmp _ | .jmi _ | .skeqImm _ _ | .skneImm _ _ | .skeqReg _ _ | .skneReg _ _ | .key _ =>
    { v := i.generalWrites, pc := true }
  | .mvi _ | .adi _ => { v := i.generalWrites, index := true }
  | .sdelay _ => { v := i.generalWrites, dt := true }
  | .ssound _ => { v := i.generalWrites, st := true }
  | _ => { v := i.generalWrites }

theorem Instr.writes_v (i : Instr) : i.writes.v = i.generalWrites := by
  cases i <;> rfl

theorem Instr.writes_keys (i : Instr) : i.writes.keys = false := by
  cases i <;> rfl

theorem Instr.writes_display_eq_false {i : Instr} (h : ¬ i.writesDisplay) :
    i.writes.disp = false ∧ i.writes.drawFlag = false := by
  cases i with
  | cls => exact absurd (.inl rfl) h
  | draw x y n => exact absurd (.inr ⟨x, y, n, rfl⟩) h
  | _ => exact ⟨rfl, rfl⟩

theorem Instr.writes_dt_eq_false {i : Instr} (h : ∀ x, i ≠ .sdelay x) : i.writes.dt = false := by
  cases i with
  | sdelay x => exact absurd rfl (h x)
  | _ => rfl

theorem Instr.writes_st_eq_false {i : Instr} (h : ∀ x, i ≠ .ssound x) : i.writes.st = false := by
  cases i with
  | ssound x => exact absurd rfl (h x)
  | _ => rfl

theorem Instr.writes_index_eq_false {i : Instr} (hm : ∀ nnn, i ≠ .mvi nnn) (ha : ∀ x, i ≠ .adi x) :
    i.writes.index = false := by
  cases i with
  | mvi nnn => exact absurd rfl (hm nnn)
  | adi x => exact absurd rfl (ha x)
  | _ => rfl

theorem Instr.writes_stack_eq_false {i : Instr} (hr : i ≠ .rts) (hj : ∀ nnn, i ≠ .jsr nnn) :
    i.writes.stack = false := by
  cases i with
  | rts => exact absurd rfl hr
  | jsr nnn => exact absurd rfl (hj nnn)
  | _ => rfl

end Sys2Proof

namespace Sys2Proof.Machine

theorem frame_writeFlag_writeIndex (s : State) (f : Bool) (w : Word) :
    Frame { v := [VF], index := true } s ((s.writeFlag f).writeIndex w) :=
  { frame_writeV s VF (flagByte f) with index := nofun }

/-- A completed DRAW: `VF`, the display and `draw_flag` (R182, R36). -/
theorem frame_drawn (s : State) (cv : Canvas) :
    Frame { v := [VF], disp := true, drawFlag := true } s
      { s.writeFlag cv.collided with disp := cv.disp, drawFlag := true } :=
  { frame_writeV s VF (flagByte cv.collided) with disp := nofun, drawFlag := nofun }

/-- Every instruction keeps what `Instr.writes` does not list, whether it completes or fails. -/
theorem exec_frame (i : Instr) (s : State) : ∃ t, exec i s = .next t ∧ Frame i.writes s t := by
  cases i with
  | movImm | addImm | movReg | orReg | andReg | xorReg | rand | gdelay => exact ⟨_, rfl, frame_writeV ..⟩
  | addReg | subReg | shr | rsb | shl => exact ⟨_, rfl, frame_writeFlagThenV ..⟩
  | skeqImm | skneImm | skeqReg | skneReg => exact ⟨_, rfl, frame_skipIf ..⟩
  | jmp | jmi => exact ⟨_, rfl, frame_setPc ..⟩
  | mvi => exact ⟨_, rfl, by apply frame_of_fields <;> simp [Instr.writes]⟩
  | adi => exact ⟨_, rfl, frame_writeFlag_writeIndex ..⟩
  | cls | sdelay | ssound => exact ⟨_, rfl, by apply frame_of_fields <;> simp [Instr.writes]⟩
  | rts =>
    rcases exec_rts_cases s with ⟨-, h⟩ | ⟨_, _, -, h⟩ <;>
      exact ⟨_, h, by apply frame_of_fields <;> simp [Instr.writes]⟩
  | jsr nnn =>
    rcases exec_jsr_cases nnn s with ⟨-, h⟩ | ⟨-, h⟩ <;>
      exact ⟨_, h, by apply frame_of_fields <;> simp [Instr.writes]⟩
  | skpr x =>
    rcases exec_skpr_cases x s with ⟨p, -, h⟩ | ⟨-, h⟩
    · exact ⟨_, h, { frame_skipIf s p with halted := nofun, fault := nofun, result := nofun }⟩
    · exact ⟨_, h, { frame_raise s .invalidKeyIndex with pc := nofun }⟩
  | skup x =>
    rcases exec_skup_cases x s with ⟨p, -, h⟩ | ⟨-, h⟩
    · exact ⟨_, h, { frame_skipIf s !p with halted := nofun, fault := nofun, result := nofun }⟩
    · exact ⟨_, h, { frame_raise s .invalidKeyIndex with pc := nofun }⟩
  | key x =>
    rcases exec_key_cases x s with ⟨k, -, -, h⟩ | ⟨-, h⟩
    · exact ⟨_, h, { frame_writeV s x (BitVec.ofNat 8 k) with pc := nofun }⟩
    · exact ⟨_, h, by apply frame_of_fields <;> simp [Instr.writes]⟩
  | draw x y n =>
    rcases exec_draw_cases x y n s with ⟨cv, -, h⟩ | ⟨-, h⟩
    · exact ⟨_, h, { frame_drawn s cv with halted := nofun, fault := nofun, result := nofun, free := nofun }⟩
    · exact ⟨_, h, { frame_scramble_raise s .outOfBoundsAccess with drawFlag := nofun }⟩

theorem frame_of_exec {i : Instr} {s t : State} (h : exec i s = .next t) : Frame i.writes s t := by
  obtain ⟨t', ht, hf⟩ := exec_frame i s
  cases ht.symm.trans h
  exact hf

theorem frame_tick (s : State) : Frame { dt := true, st := true } s s.tick := by
  apply frame_of_fields <;> simp

theorem frame_keySet (s : State) (k : Nat) (p : Bool) : Frame { keys := true } s (s.keySet k p) := by
  apply frame_of_fields <;> simp

theorem frame_load (s : State) (off : Nat) (bytes : List Byte) : Frame { mem := true } s (s.load off bytes) := by
  apply frame_of_fields <;> simp [State.load]

/-- Settles O15: outside `Instr.writes` an instruction keeps every register, and TICK, KEY_SET and LOAD frame them all. -/
theorem generalRegisterWriters : Obligations.GeneralRegisterWriters := by
  refine ⟨fun i s t h r hr => (frame_of_exec h).v r (i.writes_v ▸ hr), ?_, ?_, ?_⟩
  · rintro s _ r ⟨⟩
    exact (frame_tick s).v r (by simp)
  · rintro k p s _ r ⟨⟩
    exact (frame_keySet s k p).v r (by simp)
  · rintro off bytes s _ r ⟨⟩
    exact (frame_load s off bytes).v r (by simp)

/-- Settles O17: each clause is a part of the frame of the instruction or of the command. -/
theorem deviceAndIndexWriters : Obligations.DeviceAndIndexWriters := by
  refine ⟨fun i s t h => ?_, ?_, ?_, ?_⟩
  · have hf := frame_of_exec h
    exact ⟨fun hd => hf.disp (Instr.writes_display_eq_false hd).1, fun hx => hf.dt (Instr.writes_dt_eq_false hx),
      fun hx => hf.st (Instr.writes_st_eq_false hx), fun hm ha => hf.index (Instr.writes_index_eq_false hm ha),
      fun hr hj => hf.stack (Instr.writes_stack_eq_false hr hj), hf.keys i.writes_keys⟩
  · rintro s _ ⟨⟩
    have hf := frame_tick s
    exact ⟨hf.disp rfl, hf.index rfl, hf.stack rfl, hf.keys rfl⟩
  · rintro k p s _ ⟨⟩
    have hf := frame_keySet s k p
    exact ⟨hf.disp rfl, hf.dt rfl, hf.st rfl, hf.index rfl, hf.stack rfl⟩
  · rintro off bytes s _ ⟨⟩
    have hf := frame_load s off bytes
    exact ⟨hf.disp rfl, hf.dt rfl, hf.st rfl, hf.index rfl, hf.stack rfl, hf.keys rfl⟩

end Sys2Proof.Machine

/-! ## State family: the invariant of runs -/

namespace Sys2Proof.Machine

theorem zextAddress_toNat (nnn : Addr12) : (zextAddress nnn).toNat = nnn.toNat :=
  BitVec.toNat_setWidth_of_le (by decide)

theorem zextAddress_toNat_le (nnn : Addr12) : (zextAddress nnn).toNat ≤ 0xFFF := by
  rw [zextAddress_toNat]
  exact Nat.le_of_lt_succ nnn.isLt

theorem zextByte_toNat_le (b : Byte) : (zextByte b).toNat ≤ 0xFF := by
  rw [zextByte, BitVec.toNat_setWidth_of_le (by decide)]
  exact Nat.le_of_lt_succ b.isLt

/-- Two more than an address in memory does not wrap (R26). -/
theorem add_two_toNat {w : Word} (h : w.toNat ≤ 0x1000) : (w + 2#16).toNat = w.toNat + 2 :=
  BitVec.toNat_add_of_lt (by simp; omega)

/-- JMI's target: 0xFFF + 0xFF is the highest, so the sum does not wrap (R127, R27). -/
theorem jmiTarget_toNat_le (nnn : Addr12) (b : Byte) : (zextAddress nnn + zextByte b).toNat ≤ 0x10FE := by
  have h1 := zextAddress_toNat_le nnn
  have h2 := zextByte_toNat_le b
  rw [BitVec.toNat_add]
  omega

namespace State.Inv

variable {s : State}

/-! ### The operations that cannot fail keep the invariant -/

theorem writeV (h : s.Inv) (x : RegIdx) (b : Byte) : (s.writeV x b).Inv := { h with }

theorem writeFlag (h : s.Inv) (f : Bool) : (s.writeFlag f).Inv := h.writeV VF (flagByte f)

theorem writeFlagThenV (h : s.Inv) (f : Bool) (x : RegIdx) (b : Byte) : (s.writeFlagThenV f x b).Inv :=
  (h.writeFlag f).writeV x b

theorem writeDt (h : s.Inv) (b : Byte) : (s.writeDt b).Inv := { h with }

theorem writeSt (h : s.Inv) (b : Byte) : (s.writeSt b).Inv := { h with }

theorem withDisplay (h : s.Inv) (d : Display) (f : Bool) : { s with disp := d, drawFlag := f }.Inv := { h with }

theorem scrambleDisplay (h : s.Inv) : s.scrambleDisplay.Inv := { h with }

/-- The mask of R25 bounds every write of `I`. -/
theorem writeIndex (h : s.Inv) (w : Word) : (s.writeIndex w).Inv :=
  { h with
    index_bound := by
      rw [State.writeIndex_index, BitVec.toNat_and]
      exact Nat.and_le_right }

theorem setPc (h : s.Inv) {w : Word} (hw : w.toNat ≤ 0x10FE) : (s.setPc w).Inv := { h with pc_bound := hw }

theorem skipIf (h : s.Inv) (hpc : s.pc.toNat ≤ 0x1000) (c : Bool) : (s.skipIf c).Inv := by
  cases c with
  | false => exact h
  | true => exact h.setPc (by rw [add_two_toNat hpc]; omega)

theorem tick (h : s.Inv) : s.tick.Inv := { h with }

theorem keySet (h : s.Inv) (k : Nat) (p : Bool) : (s.keySet k p).Inv := { h with }

theorem takeScripted (h : s.Inv) (rest : List Command) : (s.takeScripted rest).Inv := { h with }

theorem drawFree (h : s.Inv) : s.drawFree.Inv := { h with }

theorem haltedCycle (h : s.Inv) : s.haltedCycle.Inv := { h with halted_result := fun _ => rfl }

theorem loadBytes (h : s.Inv) (off : Nat) (bytes : List Byte) : (s.loadBytes off bytes).Inv := by
  have hm := State.loadBytes_wf h.mem_wf off bytes
  rw [State.loadBytes_only_mem]
  exact { h with mem_wf := hm }

/-- The record of a failure is in order when its kind is one that some rule raises and its word is absent exactly for a
failed fetch; the core was running before, so it is halted exactly when the kind is fatal (R223, R224). -/
theorem raise (h : s.Inv) (hrun : s.halted = false) {k : FailureKind} (hk : k ≠ .invalidRegisterIndex)
    (hw : s.cyc.word = none ↔ k = .outOfBoundsFetch) : (s.raise k).Inv where
  mem_wf := h.mem_wf
  index_bound := h.index_bound
  pc_bound := h.pc_bound
  stack_depth := h.stack_depth
  stack_entries := h.stack_entries
  halted_iff := by simp [State.raise, hrun]
  fault_kind := by simpa [State.raise] using hk
  fault_word := by simpa [State.raise] using hw
  halted_result _ := rfl

theorem beginCycle (h : s.Inv) (hrun : s.halted = false) (rnd : Byte) : (s.beginCycle rnd).Inv :=
  { h with halted_result := fun hh => absurd (hrun.symm.trans hh) (by decide) }

end State.Inv

/-! ### Execution keeps the invariant -/

/-- What holds when an instruction starts to execute: the invariant, a core that runs, its word noted, and `PC` two above
the address of a fetch inside memory (R26, R65). -/
structure State.Executing (s : State) : Prop where
  inv : s.Inv
  running : s.halted = false
  word_noted : s.cyc.word ≠ none
  pc_low : 2 ≤ s.pc.toNat
  pc_high : s.pc.toNat ≤ 0x1000

theorem State.Inv.atExecute {s : State} (h : s.Inv) (hrun : s.halted = false) (hpc : s.pc.toNat ≤ 0xFFE) (rnd : Byte)
    (w : Word) : (s.atExecute rnd w).Executing := by
  have hpc' : (s.atExecute rnd w).pc.toNat = s.pc.toNat + 2 := add_two_toNat (w := s.pc) (by omega)
  exact {
    inv := { h.beginCycle hrun rnd with pc_bound := by omega }
    running := hrun
    word_noted := nofun
    pc_low := by omega
    pc_high := by omega }

/-- A failure at execute: its word is noted, so any kind but the fetch's may be recorded. -/
theorem State.Executing.raise {s : State} (h : s.Executing) {k : FailureKind} (hk : k ≠ .invalidRegisterIndex)
    (hf : k ≠ .outOfBoundsFetch) : (s.raise k).Inv :=
  h.inv.raise h.running hk (iff_of_false h.word_noted hf)

/-- RTS: the popped entry is a bounded address, and the rest of the stack keeps its bounds (R120). -/
theorem State.Inv.popIntoPc {s : State} (h : s.Inv) {w : Word} {below : List Word} (hs : s.stack = w :: below) :
    ({ s with stack := below }.setPc w).Inv := by
  have hdepth := h.stack_depth
  have hentries := h.stack_entries
  simp only [hs, List.length_cons, List.forall_mem_cons] at hdepth hentries
  obtain ⟨hw, hbelow⟩ := hentries
  exact { h with
    pc_bound := show w.toNat ≤ 0x10FE by omega
    stack_depth := show below.length ≤ 16 by omega
    stack_entries := hbelow }

/-- JSR: the pushed `PC` is an address after an instruction in memory, and there was room for it (R122). -/
theorem State.Executing.pushThenJump {s : State} (h : s.Executing) (hroom : s.stack.length < 16) (nnn : Addr12) :
    ({ s with stack := s.pc :: s.stack }.setPc (zextAddress nnn)).Inv :=
  { h.inv with
    pc_bound := (zextAddress_toNat_le nnn).trans (by decide)
    stack_depth := hroom
    stack_entries := List.forall_mem_cons.mpr ⟨⟨h.pc_low, h.pc_high⟩, h.inv.stack_entries⟩ }

/-- Every instruction ends in a state that meets the invariant, failing or not. -/
theorem exec_establishes_inv (i : Instr) {s : State} (h : s.Executing) : ∃ t, exec i s = .next t ∧ t.Inv := by
  cases i with
  | movImm | addImm | movReg | orReg | andReg | xorReg | rand | gdelay => exact ⟨_, rfl, h.inv.writeV ..⟩
  | addReg | subReg | shr | rsb | shl => exact ⟨_, rfl, h.inv.writeFlagThenV ..⟩
  | skeqImm | skneImm | skeqReg | skneReg => exact ⟨_, rfl, h.inv.skipIf h.pc_high _⟩
  | jmp nnn => exact ⟨_, rfl, h.inv.setPc ((zextAddress_toNat_le nnn).trans (by decide))⟩
  | jmi nnn => exact ⟨_, rfl, h.inv.setPc (jmiTarget_toNat_le nnn _)⟩
  | mvi => exact ⟨_, rfl, h.inv.writeIndex _⟩
  | adi => exact ⟨_, rfl, (h.inv.writeFlag _).writeIndex _⟩
  | sdelay => exact ⟨_, rfl, h.inv.writeDt _⟩
  | ssound => exact ⟨_, rfl, h.inv.writeSt _⟩
  | cls => exact ⟨_, rfl, h.inv.withDisplay _ _⟩
  | rts =>
    rcases exec_rts_cases s with ⟨-, he⟩ | ⟨w, below, hs, he⟩
    · exact ⟨_, he, h.raise (by decide) (by decide)⟩
    · exact ⟨_, he, h.inv.popIntoPc hs⟩
  | jsr nnn =>
    rcases exec_jsr_cases nnn s with ⟨hroom, he⟩ | ⟨-, he⟩
    · exact ⟨_, he, h.pushThenJump hroom nnn⟩
    · exact ⟨_, he, h.raise (by decide) (by decide)⟩
  | skpr x =>
    rcases exec_skpr_cases x s with ⟨p, -, he⟩ | ⟨-, he⟩
    · exact ⟨_, he, h.inv.skipIf h.pc_high p⟩
    · exact ⟨_, he, h.raise (by decide) (by decide)⟩
  | skup x =>
    rcases exec_skup_cases x s with ⟨p, -, he⟩ | ⟨-, he⟩
    · exact ⟨_, he, h.inv.skipIf h.pc_high _⟩
    · exact ⟨_, he, h.raise (by decide) (by decide)⟩
  | key x =>
    rcases exec_key_cases x s with ⟨k, -, -, he⟩ | ⟨-, he⟩
    · exact ⟨_, he, h.inv.writeV x _⟩
    · have hlow := h.pc_low
      have hhigh := h.pc_high
      exact ⟨_, he, h.inv.setPc (by rw [BitVec.toNat_sub_of_le (by simpa [BitVec.le_def] using hlow)]; omega)⟩
  | draw x y n =>
    rcases exec_draw_cases x y n s with ⟨cv, -, he⟩ | ⟨-, he⟩
    · exact ⟨_, he, (h.inv.writeFlag cv.collided).withDisplay cv.disp true⟩
    · exact ⟨_, he, h.inv.scrambleDisplay.raise h.running (by decide) (iff_of_false h.word_noted (by decide))⟩

/-! ### Commands and steps keep the invariant -/

theorem State.pc_le_of_fetchWord (s : State) {w : Word} (h : s.fetchWord = some w) : s.pc.toNat ≤ 0xFFE := by
  rcases s.fetchWord_cases with ⟨hpc, -⟩ | ⟨-, hnone⟩
  · exact hpc
  · exact absurd (h.symm.trans hnone) nofun

theorem cycle_establishes_inv (rnd : Byte) {s : State} (h : s.Inv) : ∃ t, cycle rnd s = .next t ∧ t.Inv := by
  rcases cycle_cases rnd s with ⟨-, hc⟩ | ⟨hrun, -, hc⟩ | ⟨w, r, hrun, hf, -, hc⟩ | ⟨w, i, hrun, hf, -, hc⟩
  · exact ⟨_, hc, h.haltedCycle⟩
  · exact ⟨_, hc, (h.beginCycle hrun rnd).raise hrun (by decide) (iff_of_true rfl rfl)⟩
  · exact ⟨_, hc, (h.atExecute hrun (s.pc_le_of_fetchWord hf) rnd w).raise (by decide) (by decide)⟩
  · exact hc ▸ exec_establishes_inv i (h.atExecute hrun (s.pc_le_of_fetchWord hf) rnd w)

theorem State.reset_inv : State.reset.Inv where
  mem_wf := rfl
  index_bound := by decide
  pc_bound := by decide
  stack_depth := by decide
  stack_entries := nofun
  halted_iff := by simp [State.reset]
  fault_kind := nofun
  fault_word := nofun
  halted_result := nofun

/-- CREATE: the reset values with a 12-bit `I_INIT`, and memory filled by the writes of LOAD (R51). -/
theorem State.create_inv (s : State) (p : CreateParams) : (s.create p).Inv := by
  refine State.Inv.loadBytes ?_ 0 p.memInit
  exact { State.reset_inv with index_bound := zextAddress_toNat_le p.iInit }

theorem issue_establishes_inv (c : Command) {s : State} (h : s.Inv) : ∃ t, issue c s = .next t ∧ t.Inv := by
  cases c with
  | create p => exact ⟨_, rfl, s.create_inv p⟩
  | cycle rnd => exact cycle_establishes_inv rnd h
  | tick => exact ⟨_, rfl, h.tick⟩
  | keySet k p => exact ⟨_, rfl, h.keySet k p⟩
  | load off bytes => exact ⟨_, rfl, h.loadBytes off bytes⟩

/-- The driver's bookkeeping keeps the invariant, whatever it issues next. -/
theorem State.Inv.driverTurn {s : State} (h : s.Inv) : s.driverTurn.2.Inv := by
  rcases s.driverTurn_cases with ⟨c, rest, -, -, ht⟩ | ⟨c, rest, -, -, ht⟩ | ⟨-, -, ht⟩ | ⟨-, -, ht⟩ <;> rw [ht]
  · exact h.takeScripted rest
  · exact h.takeScripted rest
  · exact h.drawFree
  · exact h

/-- Settles O56: the driver's turn keeps the invariant, and so does the command it issues. -/
theorem stepKeepsInvariant : Obligations.StepKeepsInvariant := by
  intro s t h ht
  have hturn := h.driverTurn
  rcases step_cases s with ⟨c, s', hd, hs⟩ | ⟨s', hd, hs⟩ <;> rw [hd] at hturn
  · obtain ⟨t', ht', hinv⟩ := issue_establishes_inv c hturn
    cases (hs.trans ht').symm.trans ht
    exact hinv
  · cases hs.symm.trans ht
    exact hturn

/-- Settles O55: the state CREATE answers meets the invariant whatever came before. -/
theorem createEstablishesInvariant : Obligations.CreateEstablishesInvariant := by
  rintro p s _ ⟨⟩
  exact s.create_inv p

/-- Settles O54: the bounds hold of the reset values, and no failure is recorded yet. -/
theorem invariantAtReset : Obligations.InvariantAtReset := State.reset_inv

end Sys2Proof.Machine

/-! ## State family: the driver's turn, configuration, random byte and `draw_flag` -/

namespace Sys2Proof.Machine

/-! ### The driver's turn (R50, R227) -/

theorem State.driverStopped_iff (s : State) :
    s.driverStopped = true ↔
      s.drv.policy = .halt ∧ s.fault.map FaultRecord.kind = some .unimplementedOpcode := by
  simp [State.driverStopped]

theorem step_of_scripted {s : State} {c : Command} {rest : List Command} (hs : s.drv.script = c :: rest) :
    step s = if s.driverStopped && c.isCycle then .next (s.takeScripted rest) else issue c (s.takeScripted rest) := by
  cases h : s.driverStopped && c.isCycle <;> simp [step, State.driverTurn, hs, h]

theorem step_of_unscripted {s : State} (hs : s.drv.script = []) :
    step s = if s.driverStopped then .next s else issue (.cycle (Config.freeRnd s.free)) s.drawFree := by
  cases h : s.driverStopped <;> simp [step, State.driverTurn, hs, h]

/-- Settles O6: the two step equations, with `driverStopped` spelt out. -/
theorem stepIssuesScriptedCommand : Obligations.StepIssuesScriptedCommand := by
  refine fun s => ⟨fun c rest hs => ?_, fun hs => ?_⟩
  · rw [step_of_scripted hs, ← and_assoc, ← s.driverStopped_iff, ← Bool.and_eq_true]
    exact ⟨fun h => if_pos h, fun h => if_neg h⟩
  · rw [step_of_unscripted hs, ← s.driverStopped_iff]
    exact ⟨fun h => if_pos h, fun h => if_neg h⟩

/-! ### The configuration (R34) -/

/-- The three configuration fields. -/
def State.config (s : State) : ShiftMode × JumpMode × SubFlagMode := (s.shiftMode, s.jumpMode, s.subFlagMode)

theorem State.config_eq_iff {s t : State} :
    t.config = s.config ↔ t.shiftMode = s.shiftMode ∧ t.jumpMode = s.jumpMode ∧ t.subFlagMode = s.subFlagMode := by
  simp [State.config]

theorem Frame.config {w : Writes} {s t : State} (h : Frame w s t) : t.config = s.config :=
  State.config_eq_iff.mpr ⟨h.shiftMode, h.jumpMode, h.subFlagMode⟩

theorem cycle_config {rnd : Byte} {s t : State} (h : cycle rnd s = .next t) : t.config = s.config := by
  rcases cycle_cases rnd s with ⟨-, hc⟩ | ⟨-, -, hc⟩ | ⟨w, r, -, -, -, hc⟩ | ⟨w, i, -, -, -, hc⟩ <;> rw [hc] at h
  · cases h
    rfl
  · cases h
    rfl
  · cases h
    rfl
  · exact (frame_of_exec h).config

theorem issue_config {c : Command} (hc : ∀ p, c ≠ .create p) {s t : State} (h : issue c s = .next t) :
    t.config = s.config := by
  cases c with
  | create p => exact absurd rfl (hc p)
  | cycle rnd => exact cycle_config h
  | tick => cases h; exact (frame_tick s).config
  | keySet k p => cases h; exact (frame_keySet s k p).config
  | load off bytes => cases h; exact (frame_load s off bytes).config

/-- Settles O18: no command but CREATE changes `State.config`, nor does taking a command off the script or drawing a free
byte. -/
theorem configurationFixedAtCreate : Obligations.ConfigurationFixedAtCreate := by
  intro s t hnc ht
  rw [← State.config_eq_iff]
  cases hs : s.drv.script with
  | nil =>
    rw [step_of_unscripted hs] at ht
    split at ht
    · cases ht
      rfl
    · exact cycle_config (s := s.drawFree) ht
  | cons c rest =>
    rw [step_of_scripted hs] at ht
    split at ht
    · cases ht
      rfl
    · exact issue_config (s := s.takeScripted rest) (fun p hp => hnc p rest (hp ▸ hs)) ht

/-! ### The random byte (R52) -/

/-! What the branching meanings look at, and what they do, is the same with another random byte. -/

section WithRnd

variable (s : State) (rnd : Byte)

theorem State.withRnd_pc : (s.withRnd rnd).pc = s.pc := rfl

theorem State.withRnd_disp : (s.withRnd rnd).disp = s.disp := rfl

theorem State.anchorColumn_withRnd (x : RegIdx) : (s.withRnd rnd).anchorColumn x = s.anchorColumn x := rfl

theorem State.anchorRow_withRnd (y : RegIdx) : (s.withRnd rnd).anchorRow y = s.anchorRow y := rfl

theorem State.pop_withRnd : (s.withRnd rnd).pop = s.pop.map fun p => (p.1, p.2.withRnd rnd) := by
  unfold State.pop
  cases h : s.stack <;> simp [State.withRnd, h]

theorem State.push_withRnd (w : Word) : (s.withRnd rnd).push w = (s.push w).map (·.withRnd rnd) := by
  by_cases h : s.stack.length < Config.stackDepth <;> simp [State.push, State.withRnd, h]

theorem State.skipIf_withRnd (c : Bool) : (s.withRnd rnd).skipIf c = (s.skipIf c).withRnd rnd := by
  cases c <;> rfl

theorem State.selectedKey_withRnd (x : RegIdx) : (s.withRnd rnd).selectedKey x = s.selectedKey x := rfl

theorem State.firstPressed_withRnd : (s.withRnd rnd).firstPressed = s.firstPressed := rfl

theorem State.drawRows_withRnd (x0 y0 n r : Nat) (cv : Canvas) :
    (s.withRnd rnd).drawRows x0 y0 n r cv = s.drawRows x0 y0 n r cv := by
  induction n generalizing r cv with
  | zero => rfl
  | succ n ih =>
    simp only [State.drawRows, ih]
    rfl

end WithRnd

/-- An instruction other than RAND commutes with offering another random byte. -/
theorem exec_withRnd {i : Instr} (hi : ∀ x nn, i ≠ .rand x nn) (s : State) (rnd : Byte) :
    ∃ t, exec i s = .next t ∧ exec i (s.withRnd rnd) = .next (t.withRnd rnd) := by
  cases i with
  | rand x nn => exact absurd rfl (hi x nn)
  | skeqImm | skneImm | skeqReg | skneReg => exact ⟨_, rfl, congrArg _ (s.skipIf_withRnd rnd _)⟩
  | rts =>
    simp only [exec, execRts, State.pop_withRnd]
    cases s.pop <;> exact ⟨_, rfl, rfl⟩
  | jsr nnn =>
    simp only [exec, execJsr, State.withRnd_pc, State.push_withRnd]
    cases s.push s.pc <;> exact ⟨_, rfl, rfl⟩
  | skpr x =>
    simp only [exec, execSkpr, State.selectedKey_withRnd, State.skipIf_withRnd]
    cases s.selectedKey x <;> exact ⟨_, rfl, rfl⟩
  | skup x =>
    simp only [exec, execSkup, State.selectedKey_withRnd, State.skipIf_withRnd]
    cases s.selectedKey x <;> exact ⟨_, rfl, rfl⟩
  | key x =>
    simp only [exec, execKey, State.firstPressed_withRnd]
    cases s.firstPressed <;> exact ⟨_, rfl, rfl⟩
  | draw x y n =>
    simp only [exec, execDraw, State.anchorColumn_withRnd, State.anchorRow_withRnd, State.withRnd_disp,
      State.drawRows_withRnd]
    cases s.drawRows (s.anchorColumn x) (s.anchorRow y) n.toNat 0 { disp := s.disp, collided := false } <;>
      exact ⟨_, rfl, rfl⟩
  | _ => exact ⟨_, rfl, rfl⟩

/-- Settles O19: `exec_withRnd`, for the state that the instruction answers. -/
theorem onlyRandUsesRandomByte : Obligations.OnlyRandUsesRandomByte := by
  intro i s t rnd hi ht
  obtain ⟨t', ht', hr⟩ := exec_withRnd hi s rnd
  cases ht'.symm.trans ht
  exact hr

/-! ### `draw_flag` (R36) -/

/-- From a state with `draw_flag` clear and no failure yet, an instruction sets the flag exactly when it is CLS or DRAW
and completes: a DRAW that fails leaves the flag clear (R36, R226). -/
theorem exec_drawFlag_iff (i : Instr) {s : State} (hd : s.drawFlag = false) (hr : s.cyc.result = none) :
    ∃ t, exec i s = .next t ∧ (t.drawFlag = true ↔ t.cyc.result = none ∧ i.writesDisplay) := by
  by_cases hw : i.writesDisplay
  · rcases hw with rfl | ⟨x, y, n, rfl⟩
    · exact ⟨_, rfl, iff_of_true rfl ⟨hr, .inl rfl⟩⟩
    · rcases exec_draw_cases x y n s with ⟨cv, -, h⟩ | ⟨-, h⟩
      · exact ⟨_, h, iff_of_true rfl ⟨hr, .inr ⟨x, y, n, rfl⟩⟩⟩
      · exact ⟨_, h, by simp [hd]⟩
  · obtain ⟨t, ht, hf⟩ := exec_frame i s
    have hflag : t.drawFlag = false := (hf.drawFlag (Instr.writes_display_eq_false hw).2).trans hd
    exact ⟨t, ht, by simp [hflag, hw]⟩

/-- A failed fetch and an unmatched word leave `draw_flag` clear and report a failure; a decoded instruction starts with
both clear. -/
theorem cycle_drawFlag_iff (rnd : Byte) {s : State} (hrun : s.halted = false) :
    ∃ t, cycle rnd s = .next t ∧ (t.drawFlag = true ↔
      t.cyc.result = none ∧ ∃ w i, s.fetchWord = some w ∧ decodeWord w = .ok i ∧ i.writesDisplay) := by
  rcases cycle_cases rnd s with ⟨hh, -⟩ | ⟨-, -, h⟩ | ⟨w, r, -, -, -, h⟩ | ⟨w, i, -, hf, hd, h⟩
  · exact absurd (hrun.symm.trans hh) (by decide)
  · exact ⟨_, h, by simp⟩
  · exact ⟨_, h, by simp⟩
  · obtain ⟨t, ht, hiff⟩ := exec_drawFlag_iff i (s := s.atExecute rnd w) rfl rfl
    exact ⟨t, h.trans ht, by simp [hiff, hf, hd]⟩

/-- Settles O20: `cycle_drawFlag_iff`, for the state that the CYCLE answers. -/
theorem drawFlagMarksDisplayInstructions : Obligations.DrawFlagMarksDisplayInstructions := by
  intro rnd s t hrun ht
  obtain ⟨t', ht', hiff⟩ := cycle_drawFlag_iff rnd hrun
  cases ht'.symm.trans ht
  exact hiff

end Sys2Proof.Machine

/-! ## State family: what each command sets -/

namespace Sys2Proof.Machine

/-! ### KEY_SET (R54) -/

theorem State.key_keySet (s : State) (k j : Nat) (p : Bool) :
    (s.keySet k p).key j = if k = j ∧ k < 16 then some p else s.key j := by
  simp only [State.key, State.keySet_keys, Vector.getElem?_setIfInBounds]
  by_cases hj : k = j
  · subst hj
    by_cases hk : k < 16 <;> simp [hk]
  · simp [hj]

theorem State.keySet_of_above {s : State} {k : Nat} (hk : 15 < k) (p : Bool) : s.keySet k p = s := by
  have hkeys : s.keys.setIfInBounds k p = s.keys := Vector.setIfInBounds_eq_of_size_le hk
  simp [State.keySet, hkeys]

/-- Settles O49: the written flag, the others, and the frame. -/
theorem keySetWritesOneKey : Obligations.KeySetWritesOneKey := by
  refine fun k p s => ⟨fun hk => ⟨_, rfl, ?_, fun j hj => ?_, frame_keySet s k p⟩, fun hk => ?_⟩
  · rw [State.key_keySet, if_pos ⟨rfl, by omega⟩]
  · rw [State.key_keySet, if_neg fun h => hj h.1.symm]
  · exact congrArg Host.Outcome.next (State.keySet_of_above hk p)

/-! ### CREATE and the state after reset (R20, R51) -/

theorem State.reset_readV (r : RegIdx) : State.reset.readV r = 0x00#8 := by
  simp [State.readV, State.reset, Vector.get_eq_getElem]

theorem State.reset_pixel {r c : Nat} (hr : r < 32) (hc : c < 64) : State.reset.pixel r c = some false :=
  Display.blank_pixel hr hc

theorem State.reset_key {k : Nat} (hk : k < 16) : State.reset.key k = some false := by
  simp [State.key, State.reset, hk]

/-- Settles O52: the register, pixel and key reads above; the other fields by their definition. -/
theorem resetHasGivenValues : Obligations.ResetHasGivenValues :=
  ⟨State.reset_readV, rfl, rfl, fun _ _ => State.reset_pixel, fun _ => State.reset_key, rfl, rfl, rfl, rfl, rfl, rfl⟩

/-- Inside memory, a byte of the written range reads as the byte given for it (R70). -/
theorem State.loadBytes_memRead_inside {s : State} (h : s.mem.wf = true) {off a : Nat} {bytes : List Byte}
    (hlo : off ≤ a) (hhi : a < off + bytes.length) (ha : a ≤ 0xFFF) :
    (s.loadBytes off bytes).memRead a = bytes[a - off]? := by
  induction bytes generalizing s off with
  | nil => exact absurd hhi (by simp; omega)
  | cons b bytes ih =>
    have hwf := State.memWrite_wf h off b
    rw [State.loadBytes]
    rcases hlo.eq_or_lt with rfl | hlt
    · rw [State.loadBytes_memRead_before hwf _ _ (Nat.lt_succ_self off), State.memRead_memWrite h, if_pos ⟨rfl, ha⟩]
      simp
    · have hindex : a - off = a - (off + 1) + 1 := by omega
      rw [ih hwf hlt (by simp at hhi; omega), hindex, List.getElem?_cons_succ]

theorem State.create_memRead (s : State) {p : CreateParams} {a : Nat} (ha : a < p.memInit.length) (hin : a ≤ 0xFFF) :
    (s.create p).memRead a = p.memInit[a]? :=
  State.loadBytes_memRead_inside (off := 0) rfl (Nat.zero_le a) (by omega) hin

/-- CREATE fills memory by the writes of LOAD, which leave every other element at the value given to it. -/
theorem State.create_eq (s : State) (p : CreateParams) : s.create p =
    { State.reset with
      index := zextAddress p.iInit, dt := p.dtInit, st := p.stInit, shiftMode := p.shiftMode, jumpMode := p.jumpMode,
      subFlagMode := p.subFlagMode, free := s.free, drv := s.drv, mem := (s.create p).mem } :=
  State.loadBytes_only_mem ..

/-- Settles O51: `State.create_eq` gives every element but memory, `State.create_memRead` gives memory. -/
theorem createSetsEveryElement : Obligations.CreateSetsEveryElement := by
  intro p s hlen
  refine ⟨_, rfl, ?_⟩
  have hmem : ∀ a : Nat, a ≤ 0xFFF → (s.create p).memRead a = p.memInit[a]? :=
    fun a ha => s.create_memRead (by omega) ha
  have h := s.create_eq p
  generalize s.create p = t at h hmem ⊢
  rw [h] at hmem ⊢
  exact ⟨State.reset_readV, zextAddress_toNat p.iInit, rfl, rfl, fun _ _ => State.reset_pixel, rfl, rfl, fun _ =>
    State.reset_key, hmem, rfl, rfl, rfl, rfl, rfl, rfl⟩

end Sys2Proof.Machine

/-! ## Memory family: fetch, LOAD, and who writes memory (20_memory.md R60 to R73) -/

namespace Sys2Proof

theorem Instr.writes_mem (i : Instr) : i.writes.mem = false := by
  cases i <;> rfl

end Sys2Proof

namespace Sys2Proof.Machine

/-! ### The fetch and the CYCLE it starts (R65, R230) -/

theorem State.memRead_eq_some_iff {s : State} {a : Nat} {b : Byte} :
    s.memRead a = some b ↔ a ≤ 0xFFF ∧ s.mem.read a = b := by
  rcases Nat.lt_or_ge 0xFFF a with ha | ha
  · simp [State.memRead_above ha, Nat.not_le.mpr ha]
  · simp [State.memRead_inside ha, ha]

theorem State.fetchWord_of_memRead {s : State} {hi lo : Byte} (hhi : s.memRead s.pc.toNat = some hi)
    (hlo : s.memRead (s.pc.toNat + 1) = some lo) : s.fetchWord = some (wordOfBytes hi lo) := by
  obtain ⟨-, rfl⟩ := State.memRead_eq_some_iff.mp hhi
  obtain ⟨hin, rfl⟩ := State.memRead_eq_some_iff.mp hlo
  rcases s.fetchWord_cases with ⟨-, hf⟩ | ⟨habove, -⟩
  · exact hf
  · omega

/-- A running core that fetches the word of `i` runs `i` in the state R26 and R230 give. -/
theorem cycle_of_decoded {s : State} {w : Word} {i : Instr} (hrun : s.halted = false) (hf : s.fetchWord = some w)
    (hd : decodeWord w = .ok i) (rnd : Byte) : cycle rnd s = exec i (s.entering rnd w) := by
  simp [cycle, hrun, hf, hd, State.atExecute_eq_entering]

/-- A running core whose `PC` is above 0xFFE records the failed fetch, for which no word is noted (R65, R226). -/
theorem cycle_of_failed_fetch {s : State} (hrun : s.halted = false) (hpc : 0xFFE < s.pc.toNat) (rnd : Byte) :
    cycle rnd s = .next ((s.beginCycle rnd).raise .outOfBoundsFetch) := by
  rcases s.fetchWord_cases with ⟨hin, -⟩ | ⟨-, hf⟩
  · omega
  · simp [cycle, hrun, hf]

theorem frame_beginCycle_raise (s : State) (rnd : Byte) (k : FailureKind) :
    Frame { status := true, drawFlag := true, cycInput := true } s ((s.beginCycle rnd).raise k) := by
  apply frame_of_fields <;> simp

theorem decodeWord_of_decode {hi lo : Byte} {i : Instr} {rest : List Byte} (h : decode [hi, lo] = .ok (i, rest)) :
    decodeWord (wordOfBytes hi lo) = .ok i := by
  cases hd : decodeWord (wordOfBytes hi lo) with
  | error r => simp [decode, hd] at h
  | ok j =>
    obtain ⟨rfl, -⟩ : j = i ∧ [] = rest := by simpa [decode, hd] using h
    rfl

/-! ### LOAD (R70, R73) -/

/-- An address outside the written range, or above 0xFFF, reads as before (R70). -/
theorem State.loadBytes_memRead_outside {s : State} (h : s.mem.wf = true) {off a : Nat} {bytes : List Byte}
    (ha : ¬ (off ≤ a ∧ a < off + bytes.length ∧ a ≤ 0xFFF)) : (s.loadBytes off bytes).memRead a = s.memRead a := by
  induction bytes generalizing s off with
  | nil => rfl
  | cons b bytes ih =>
    rw [List.length_cons] at ha
    rw [State.loadBytes, ih (State.memWrite_wf h off b) (by omega), State.memRead_memWrite h, if_neg (by omega)]

/-- Settles O7: the two loaded bytes are the fetched word (R73), and LOAD leaves the core running with its `PC`. -/
theorem loadedWordIsFetched : Obligations.LoadedWordIsFetched := by
  intro rnd hi lo i s hwf hrun hpc hd
  have hbytes : bytesOfWord (wordOfBytes hi lo) = [hi, lo] := by simp [bytesOfWord]
  have hf := State.fetchWord_load hwf hpc (wordOfBytes hi lo)
  rw [hbytes] at hf
  exact ⟨_, rfl, cycle_of_decoded ((s.loadBytes_halted _ _).trans hrun) hf hd rnd⟩

/-- Settles O50: the reads inside and outside the range, the canonical form, and the frame of LOAD. -/
theorem loadWritesItsRange : Obligations.LoadWritesItsRange := fun off bytes s hwf =>
  ⟨_, rfl, fun _ => State.loadBytes_memRead_inside hwf, fun _ => State.loadBytes_memRead_outside hwf,
    State.loadBytes_wf hwf off bytes, frame_load s off bytes⟩

/-! ### No other writer of memory (R62, R64) -/

theorem cycle_memRead {rnd : Byte} {s t : State} (h : cycle rnd s = .next t) (a : Nat) : t.memRead a = s.memRead a := by
  rcases cycle_cases rnd s with ⟨-, hc⟩ | ⟨-, -, hc⟩ | ⟨w, r, -, -, -, hc⟩ | ⟨w, i, -, -, -, hc⟩ <;> rw [hc] at h
  · cases h
    rfl
  · cases h
    rfl
  · cases h
    rfl
  · exact (frame_of_exec h).mem i.writes_mem a

theorem issue_memRead {c : Command} (hload : ∀ off bytes, c ≠ .load off bytes) (hcreate : ∀ p, c ≠ .create p)
    {s t : State} (h : issue c s = .next t) (a : Nat) : t.memRead a = s.memRead a := by
  cases c with
  | create p => exact absurd rfl (hcreate p)
  | cycle rnd => exact cycle_memRead h a
  | tick => cases h; exact (frame_tick s).mem rfl a
  | keySet k p => cases h; exact (frame_keySet s k p).mem rfl a
  | load off bytes => exact absurd rfl (hload off bytes)

/-- Settles O16: the driver's turn touches no memory, and the command it issues is neither LOAD nor CREATE. -/
theorem memoryWrittenOnlyByLoad : Obligations.MemoryWrittenOnlyByLoad := by
  intro s t hload hcreate ht a
  rcases s.driverTurn_cases with ⟨c, rest, hs, -, hd⟩ | ⟨c, rest, -, -, hd⟩ | ⟨-, -, hd⟩ | ⟨-, -, hd⟩ <;>
    simp only [step, hd] at ht
  · exact issue_memRead (s := s.takeScripted rest) (fun off bytes hc => hload off bytes rest (hc ▸ hs))
      (fun p hc => hcreate p rest (hc ▸ hs)) ht a
  · cases ht
    rfl
  · exact cycle_memRead (s := s.drawFree) ht a
  · cases ht
    rfl

/-! ### What a step of a running core does with the bytes at `PC` -/

/-- Settles O5: the two bytes are the fetched word, also after the driver's bookkeeping of the step. -/
theorem stepRunsDecodedInstruction : Obligations.StepRunsDecodedInstruction := by
  intro s hi lo i hrun hhi hlo hdecode
  have hf := State.fetchWord_of_memRead hhi hlo
  have hd := decodeWord_of_decode hdecode
  refine ⟨cycle_of_decoded hrun hf hd, fun hs hgo => ?_, fun rnd rest hs hgo => ?_⟩
  · rw [step_of_unscripted hs, if_neg (by simp [hgo])]
    exact cycle_of_decoded (s := s.drawFree) hrun hf hd _
  · rw [step_of_scripted hs, if_neg (by simp [hgo])]
    exact cycle_of_decoded (s := s.takeScripted rest) hrun hf hd rnd

/-- Settles O8: the failed fetch, whose record carries the address noted at the start of the CYCLE. -/
theorem fetchBeyondMemoryHalts : Obligations.FetchBeyondMemoryHalts := fun rnd s hrun hpc =>
  ⟨_, cycle_of_failed_fetch hrun hpc rnd, rfl, Bool.or_true _, rfl, rfl, frame_beginCycle_raise s rnd .outOfBoundsFetch⟩

end Sys2Proof.Machine

/-! ## Encoding family: decoder, encoder and the opcode map (30_encoding.md R90 to R106) -/

namespace Sys2Proof

/-! ### Decoding after encoding -/

/-- The fields of an encoded word select its instruction again; the cases are grouped by format (R93). -/
@[simp] theorem decodeWord_encode (i : Instr) : decodeWord (encode i) = .ok i := by
  cases i with
  | cls | rts => rfl
  | jmp | jsr | mvi | jmi => simp [encode, decodeWord]
  | skeqImm | skneImm | movImm | addImm | rand => simp [encode, decodeWord]
  | skeqReg | skneReg | draw => simp [encode, decodeWord]
  | movReg | orReg | andReg | xorReg | addReg | subReg | shr | rsb | shl => simp [encode, decodeWord, decodeFamily8]
  | skpr | skup => simp [encode, decodeWord, decodeFamilyE]
  | gdelay | key | sdelay | ssound | adi => simp [encode, decodeWord, decodeFamilyF]

theorem decode_encodeBytes (i : Instr) (rest : List Byte) : decode (encodeBytes i ++ rest) = .ok (i, rest) := by
  simp [encodeBytes, bytesOfWord, decode]

/-- Settles O1: `decode_encodeBytes`; every instruction is well-formed, so the hypothesis is not needed. -/
theorem decodeUndoesEncode : Obligations.DecodeUndoesEncode := fun i rest _ => decode_encodeBytes i rest

/-! ### A word from the fields that the decoder tests -/

theorem ofFamilyAddress_of_family {w : Word} {f : Nibble} (hf : fieldFamily w = f) :
    ofFamilyAddress f (fieldNNN w) = w :=
  hf ▸ ofFamilyAddress_fields w

theorem ofFamilyByte_of_family {w : Word} {f : Nibble} (hf : fieldFamily w = f) :
    ofFamilyByte f (fieldX w) (fieldNN w) = w :=
  hf ▸ ofFamilyByte_fields w

theorem ofFamilyByte_of_family_byte {w : Word} {f : Nibble} {nn : Byte} (hf : fieldFamily w = f)
    (hnn : fieldNN w = nn) : ofFamilyByte f (fieldX w) nn = w :=
  hnn ▸ ofFamilyByte_of_family hf

theorem ofNibbles_of_family {w : Word} {f : Nibble} (hf : fieldFamily w = f) :
    ofNibbles f (fieldX w) (fieldY w) (fieldN w) = w :=
  hf ▸ ofNibbles_fields w

theorem ofNibbles_of_family_low {w : Word} {f n : Nibble} (hf : fieldFamily w = f) (hn : fieldN w = n) :
    ofNibbles f (fieldX w) (fieldY w) n = w :=
  hn ▸ ofNibbles_of_family hf

/-! ### What the decoder can answer -/

/-- What the decoder may answer for `w`: an instruction with this very word, or the rejection that names `w`. -/
def Faithful (w : Word) : Except Rejection Instr → Prop
  | .ok i => encode i = w
  | .error r => r = .unimplementedOpcode w

@[simp] theorem faithful_ok {w : Word} {i : Instr} : Faithful w (.ok i) ↔ encode i = w := Iff.rfl

@[simp] theorem faithful_error {w : Word} {r : Rejection} : Faithful w (.error r) ↔ r = .unimplementedOpcode w :=
  Iff.rfl

theorem decodeFamily0_faithful (w : Word) : Faithful w (decodeFamily0 w) := by
  unfold decodeFamily0
  split
  next h => exact h.symm
  next =>
    split
    next h => exact h.symm
    next => rfl

theorem decodeFamily8_faithful {w : Word} (hf : fieldFamily w = 0x8#4) : Faithful w (decodeFamily8 w) := by
  unfold decodeFamily8
  split
  case h_10 => rfl
  all_goals
    next hn => exact ofNibbles_of_family_low hf (BitVec.eq_of_toNat_eq hn)

theorem decodeFamilyE_faithful {w : Word} (hf : fieldFamily w = 0xE#4) : Faithful w (decodeFamilyE w) := by
  unfold decodeFamilyE
  split
  case h_3 => rfl
  all_goals
    next hnn => exact ofFamilyByte_of_family_byte hf (BitVec.eq_of_toNat_eq hnn)

theorem decodeFamilyF_faithful {w : Word} (hf : fieldFamily w = 0xF#4) : Faithful w (decodeFamilyF w) := by
  unfold decodeFamilyF
  split
  case h_6 => rfl
  all_goals
    next hnn => exact ofFamilyByte_of_family_byte hf (BitVec.eq_of_toNat_eq hnn)

/-- Families 5 and 9 match only with `n3 = 0` (R102). -/
theorem ite_low_zero_faithful {w : Word} {i : Instr} (h : fieldN w = 0#4 → encode i = w) :
    Faithful w (if fieldN w = 0#4 then .ok i else .error (.unimplementedOpcode w)) := by
  split
  next hn => exact h hn
  next => rfl

/-- The decoder's one case split: by the family, each with the format of its rows (R93, R100). Case `h_k` is family
`k - 1`, and `h_17` the default that no nibble reaches. -/
theorem decodeWord_faithful (w : Word) : Faithful w (decodeWord w) := by
  unfold decodeWord
  split
  case h_1 => exact decodeFamily0_faithful w
  case h_2 hf | h_3 hf | h_11 hf | h_12 hf => exact ofFamilyAddress_of_family (BitVec.eq_of_toNat_eq hf)
  case h_4 hf | h_5 hf | h_7 hf | h_8 hf | h_13 hf => exact ofFamilyByte_of_family (BitVec.eq_of_toNat_eq hf)
  case h_6 hf | h_10 hf => exact ite_low_zero_faithful (ofNibbles_of_family_low (BitVec.eq_of_toNat_eq hf))
  case h_9 hf => exact decodeFamily8_faithful (BitVec.eq_of_toNat_eq hf)
  case h_14 hf => exact ofNibbles_of_family (BitVec.eq_of_toNat_eq hf)
  case h_15 hf => exact decodeFamilyE_faithful (BitVec.eq_of_toNat_eq hf)
  case h_16 hf => exact decodeFamilyF_faithful (BitVec.eq_of_toNat_eq hf)
  case h_17 => rfl

theorem encode_of_decodeWord {w : Word} {i : Instr} (h : decodeWord w = .ok i) : encode i = w := by
  simpa [h] using decodeWord_faithful w

theorem rejection_of_decodeWord {w : Word} {r : Rejection} (h : decodeWord w = .error r) :
    r = .unimplementedOpcode w := by
  simpa [h] using decodeWord_faithful w

theorem encodeBytes_of_decode {bytes rest : List Byte} {i : Instr} (h : decode bytes = .ok (i, rest)) :
    bytes = encodeBytes i ++ rest := by
  unfold decode at h
  split at h
  next hi lo tail =>
    cases hd : decodeWord (wordOfBytes hi lo) with
    | error r => simp [hd] at h
    | ok j =>
      obtain ⟨rfl, rfl⟩ : j = i ∧ tail = rest := by simpa [hd] using h
      simp [encodeBytes, bytesOfWord, encode_of_decodeWord hd]
  next => cases h

/-- Settles O2: the decoder is faithful to the word of the first two bytes, and a word is its two bytes. -/
theorem encodeUndoesDecode : Obligations.EncodeUndoesDecode := fun _ _ _ h => encodeBytes_of_decode h

/-! ### The rows of the opcode map (R100 to R102) -/

theorem Row.selects_iff {r : Row} {w : Word} : r.selects w = true ↔ w &&& r.mask = r.pattern := beq_iff_eq

/-- Two rows that select one word agree on the bits that both of them fix. -/
theorem Row.agree_of_selects {r r' : Row} {w : Word} (h : r.selects w = true) (h' : r'.selects w = true) :
    r.pattern &&& r'.mask = r'.pattern &&& r.mask := by
  rw [Row.selects_iff] at h h'
  rw [← h, ← h', BitVec.and_assoc, BitVec.and_assoc, BitVec.and_comm r.mask]

/-- No two different rows of the map agree on the bits that both of them fix. -/
theorem opcodeTable_rows_disagree :
    ∀ r ∈ opcodeTable, ∀ r' ∈ opcodeTable, r.pattern &&& r'.mask = r'.pattern &&& r.mask → r = r' := by
  decide

theorem Instr.row_mem_opcodeTable (i : Instr) : i.row ∈ opcodeTable := by
  cases i <;> simp [Instr.row, opcodeTable, opcodeRowsLow, opcodeRowsFamily8, opcodeRowsHigh]

/-- The laws of Laws/PerInstr.lean, taken together by format. -/
theorem encodesIntoOwnRow (i : Instr) : Laws.EncodesIntoOwnRow.Statement i := by
  cases i with
  | cls => exact Laws.EncodesIntoOwnRow.cls
  | rts => exact Laws.EncodesIntoOwnRow.rts
  | jmp nnn | jsr nnn | mvi nnn | jmi nnn => exact Laws.EncodesIntoOwnRow.of_format rfl (Laws.formatA _ nnn)
  | skeqImm x nn | skneImm x nn | movImm x nn | addImm x nn | rand x nn =>
    exact Laws.EncodesIntoOwnRow.of_format rfl (Laws.formatXNN _ x nn)
  | skeqReg x y | skneReg x y | movReg x y | orReg x y | andReg x y | xorReg x y | addReg x y | subReg x y
  | shr x y | rsb x y | shl x y =>
    exact Laws.EncodesIntoOwnRow.of_format rfl (Laws.formatXY _ x y _)
  | draw x y n => exact Laws.EncodesIntoOwnRow.draw x y n
  | skpr x | skup x | gdelay x | key x | sdelay x | ssound x | adi x =>
    exact Laws.EncodesIntoOwnRow.of_format rfl (Laws.formatX _ x _)

theorem Instr.row_selects_encode (i : Instr) : i.row.selects (encode i) = true :=
  (encodesIntoOwnRow i).2.2

/-- A field that a row's mask fixes whole has the row's value in every word that selects the row. -/
theorem Row.field_of_selects {r : Row} {w : Word} (start len : Nat)
    (hm : r.mask.extractLsb' start len = BitVec.allOnes len) (h : r.selects w = true) :
    w.extractLsb' start len = r.pattern.extractLsb' start len := by
  rw [← Row.selects_iff.mp h, BitVec.extractLsb'_and, hm, BitVec.and_allOnes]

/-! #### The word of a row of each format, from its fields -/

theorem Row.word_of_selects (r : Row) {w : Word} (hm : r.mask = BitVec.allOnes 16) (h : r.selects w = true) :
    r.pattern = w := by
  rw [← Row.selects_iff.mp h, hm, BitVec.and_allOnes]

theorem Row.formatA_of_selects (r : Row) {w : Word} (hm : r.mask = 0xF000#16) (h : r.selects w = true) :
    ofFamilyAddress (fieldFamily r.pattern) (fieldNNN w) = w :=
  ofFamilyAddress_of_family (r.field_of_selects 12 4 (by rw [hm]; rfl) h)

theorem Row.formatXNN_of_selects (r : Row) {w : Word} (hm : r.mask = 0xF000#16) (h : r.selects w = true) :
    ofFamilyByte (fieldFamily r.pattern) (fieldX w) (fieldNN w) = w :=
  ofFamilyByte_of_family (r.field_of_selects 12 4 (by rw [hm]; rfl) h)

theorem Row.formatXYN_of_selects (r : Row) {w : Word} (hm : r.mask = 0xF000#16) (h : r.selects w = true) :
    ofNibbles (fieldFamily r.pattern) (fieldX w) (fieldY w) (fieldN w) = w :=
  ofNibbles_of_family (r.field_of_selects 12 4 (by rw [hm]; rfl) h)

theorem Row.formatXY_of_selects (r : Row) {w : Word} (hm : r.mask = 0xF00F#16) (h : r.selects w = true) :
    ofNibbles (fieldFamily r.pattern) (fieldX w) (fieldY w) (fieldN r.pattern) = w :=
  ofNibbles_of_family_low (r.field_of_selects 12 4 (by rw [hm]; rfl) h) (r.field_of_selects 0 4 (by rw [hm]; rfl) h)

theorem Row.formatX_of_selects (r : Row) {w : Word} (hm : r.mask = 0xF0FF#16) (h : r.selects w = true) :
    ofFamilyByte (fieldFamily r.pattern) (fieldX w) (fieldNN r.pattern) = w :=
  ofFamilyByte_of_family_byte (r.field_of_selects 12 4 (by rw [hm]; rfl) h)
    (r.field_of_selects 0 8 (by rw [hm]; rfl) h)

/-- A word that selects a row is the encoding of that row's instruction with the word's own operands. -/
theorem exists_encode_of_selects {w : Word} : ∀ r ∈ opcodeTable, r.selects w = true → ∃ i, encode i = w := by
  simp only [opcodeTable, opcodeRowsLow, opcodeRowsFamily8, opcodeRowsHigh, List.cons_append, List.nil_append,
    List.forall_mem_cons]
  exact ⟨
    fun h => ⟨.cls, rowCls.word_of_selects rfl h⟩,
    fun h => ⟨.rts, rowRts.word_of_selects rfl h⟩,
    fun h => ⟨.jmp _, rowJmp.formatA_of_selects rfl h⟩,
    fun h => ⟨.jsr _, rowJsr.formatA_of_selects rfl h⟩,
    fun h => ⟨.skeqImm _ _, rowSkeqImm.formatXNN_of_selects rfl h⟩,
    fun h => ⟨.skneImm _ _, rowSkneImm.formatXNN_of_selects rfl h⟩,
    fun h => ⟨.skeqReg _ _, rowSkeqReg.formatXY_of_selects rfl h⟩,
    fun h => ⟨.movImm _ _, rowMovImm.formatXNN_of_selects rfl h⟩,
    fun h => ⟨.addImm _ _, rowAddImm.formatXNN_of_selects rfl h⟩,
    fun h => ⟨.movReg _ _, rowMovReg.formatXY_of_selects rfl h⟩,
    fun h => ⟨.orReg _ _, rowOrReg.formatXY_of_selects rfl h⟩,
    fun h => ⟨.andReg _ _, rowAndReg.formatXY_of_selects rfl h⟩,
    fun h => ⟨.xorReg _ _, rowXorReg.formatXY_of_selects rfl h⟩,
    fun h => ⟨.addReg _ _, rowAddReg.formatXY_of_selects rfl h⟩,
    fun h => ⟨.subReg _ _, rowSubReg.formatXY_of_selects rfl h⟩,
    fun h => ⟨.shr _ _, rowShr.formatXY_of_selects rfl h⟩,
    fun h => ⟨.rsb _ _, rowRsb.formatXY_of_selects rfl h⟩,
    fun h => ⟨.shl _ _, rowShl.formatXY_of_selects rfl h⟩,
    fun h => ⟨.skneReg _ _, rowSkneReg.formatXY_of_selects rfl h⟩,
    fun h => ⟨.mvi _, rowMvi.formatA_of_selects rfl h⟩,
    fun h => ⟨.jmi _, rowJmi.formatA_of_selects rfl h⟩,
    fun h => ⟨.rand _ _, rowRand.formatXNN_of_selects rfl h⟩,
    fun h => ⟨.draw _ _ _, rowDraw.formatXYN_of_selects rfl h⟩,
    fun h => ⟨.skpr _, rowSkpr.formatX_of_selects rfl h⟩,
    fun h => ⟨.skup _, rowSkup.formatX_of_selects rfl h⟩,
    fun h => ⟨.gdelay _, rowGdelay.formatX_of_selects rfl h⟩,
    fun h => ⟨.key _, rowKey.formatX_of_selects rfl h⟩,
    fun h => ⟨.sdelay _, rowSdelay.formatX_of_selects rfl h⟩,
    fun h => ⟨.ssound _, rowSsound.formatX_of_selects rfl h⟩,
    fun h => ⟨.adi _, rowAdi.formatX_of_selects rfl h⟩,
    fun _ hr => absurd hr List.not_mem_nil⟩

theorem row_selects_of_decodeWord {w : Word} {i : Instr} (h : decodeWord w = .ok i) : i.row.selects w = true :=
  encode_of_decodeWord h ▸ i.row_selects_encode

theorem decodeWord_rejects_iff (w : Word) :
    decodeWord w = .error (.unimplementedOpcode w) ↔ ∀ r ∈ opcodeTable, r.selects w = false := by
  refine ⟨fun h r hr => Bool.eq_false_iff.mpr fun hsel => ?_, fun h => ?_⟩
  · obtain ⟨i, rfl⟩ := exists_encode_of_selects r hr hsel
    simp at h
  · cases hd : decodeWord w with
    | ok i => simpa [h _ i.row_mem_opcodeTable] using row_selects_of_decodeWord hd
    | error r => rw [rejection_of_decodeWord hd]

/-- Settles O3: rows that share a word agree where both are fixed; the decoder is faithful, and every word that selects
a row is an encoding. -/
theorem decoderFollowsOpcodeMap : Obligations.DecoderFollowsOpcodeMap :=
  ⟨fun _ r r' hr hr' h h' => opcodeTable_rows_disagree r hr r' hr' (Row.agree_of_selects h h'),
    fun _ i h => ⟨i.row_mem_opcodeTable, row_selects_of_decodeWord h⟩, decodeWord_rejects_iff⟩

/-- Settles O4: each word is the encoding of the instruction it decodes to. -/
theorem sourceWordsDecode : Obligations.SourceWordsDecode :=
  ⟨decode_encodeBytes (.movImm 0x0#4 0x05#8) [], decode_encodeBytes (.movImm 0x0#4 0x0A#8) [],
    decode_encodeBytes (.movImm 0x0#4 0x06#8) [], decode_encodeBytes .rts [], decode_encodeBytes (.mvi 0x200#12) [],
    decode_encodeBytes (.draw 0x0#4 0x0#4 0x5#4) [], decode_encodeBytes (.addReg 0xA#4 0xB#4) [],
    decode_encodeBytes (.jmp 0x234#12) [], decode_encodeBytes (.skpr 0x0#4) [], decode_encodeBytes (.ssound 0x3#4) []⟩

end Sys2Proof

namespace Sys2Proof.Machine

/-! ### The CYCLE of a rejected word (R105, R227) -/

/-- A running core reports a word that the decoder rejects, after the fetch has advanced `PC` (R230). -/
theorem cycle_of_rejected {s : State} {w : Word} {r : Rejection} (hrun : s.halted = false)
    (hf : s.fetchWord = some w) (hd : decodeWord w = .error r) (rnd : Byte) :
    cycle rnd s = .next ((s.atExecute rnd w).raise .unimplementedOpcode) := by
  simp [cycle, hrun, hf, hd]

theorem frame_atExecute_raise (s : State) (rnd : Byte) (w : Word) (k : FailureKind) :
    Frame { status := true, drawFlag := true, pc := true, cycInput := true } s ((s.atExecute rnd w).raise k) := by
  apply frame_of_fields <;> simp

/-- Settles O9: the decoder rejects a word that no row selects, and `UnimplementedOpcode` is no fatal kind (R227). -/
theorem unmatchedWordReported : Obligations.UnmatchedWordReported := by
  intro rnd s w hrun hf hrows
  have hd := (decodeWord_rejects_iff w).mpr hrows
  exact ⟨_, cycle_of_rejected hrun hf hd rnd, rfl, by simp [hrun, FailureKind.fatal], rfl, rfl, rfl,
    frame_atExecute_raise s rnd w .unimplementedOpcode⟩

end Sys2Proof.Machine

/-! ## Control-flow family: jumps, calls, returns and skips (41_control_flow.md R120 to R127) -/

namespace Sys2Proof.Machine

/-! ### Jump targets (R121, R127) -/

theorem zextByte_toNat (b : Byte) : (zextByte b).toNat = b.toNat :=
  BitVec.toNat_setWidth_of_le (by decide)

/-- JMI's target is the exact sum: the largest, 0xFFF + 0xFF, is far below 2^16, so nothing is masked (R127). -/
theorem jmiTarget_toNat (nnn : Addr12) (b : Byte) :
    (zextAddress nnn + zextByte b).toNat = nnn.toNat + b.toNat := by
  have hnnn := zextAddress_toNat_le nnn
  have hb := zextByte_toNat_le b
  rw [BitVec.toNat_add_of_lt (by omega), zextAddress_toNat, zextByte_toNat]

theorem leadingRegister_eq_ofNat (nnn : Addr12) : leadingRegister nnn = BitVec.ofNat 4 (nnn.toNat / 256) :=
  congrArg (BitVec.ofNat 4) (Nat.shiftRight_eq_div_pow nnn.toNat 8)

theorem State.jumpOffset_of_v0 {s : State} (h : s.jumpMode = .v0) (nnn : Addr12) :
    s.jumpOffset nnn = s.readV 0x0#4 := by
  simp [State.jumpOffset, h]

theorem State.jumpOffset_of_vx {s : State} (h : s.jumpMode = .vx) (nnn : Addr12) :
    s.jumpOffset nnn = s.readV (BitVec.ofNat 4 (nnn.toNat / 256)) := by
  simp [State.jumpOffset, h, leadingRegister_eq_ofNat]

/-- Settles O38: `PC` is the exact sum of `jmiTarget_toNat`, with the offset register of the mode. -/
theorem jumpWithOffsetAdds : Obligations.JumpWithOffsetAdds := by
  refine fun nnn s => ⟨decodeWord_encode (.jmi nnn), _, exec_jmi nnn s, fun hmode => ?_, fun hmode => ?_, frame_setPc ..⟩
  · rw [State.setPc_pc, jmiTarget_toNat, State.jumpOffset_of_v0 hmode]
  · rw [State.setPc_pc, jmiTarget_toNat, State.jumpOffset_of_vx hmode]

/-- Settles O33: the target is the zero-extended operand. -/
theorem jumpSetsPc : Obligations.JumpSetsPc := fun nnn s =>
  ⟨decodeWord_encode (.jmp nnn), _, exec_jmp nnn s, zextAddress_toNat nnn, frame_setPc ..⟩

/-! ### Calls and returns (R120, R122) -/

theorem exec_jsr_of_room {s : State} (h : s.stack.length < 16) (nnn : Addr12) :
    exec (.jsr nnn) s = .next ({ s with stack := s.pc :: s.stack }.setPc (zextAddress nnn)) := by
  rcases exec_jsr_cases nnn s with ⟨-, he⟩ | ⟨hfull, -⟩
  · exact he
  · omega

theorem exec_jsr_of_full {s : State} (h : 16 ≤ s.stack.length) (nnn : Addr12) :
    exec (.jsr nnn) s = .next (s.raise .stackOverflow) := by
  rcases exec_jsr_cases nnn s with ⟨hroom, -⟩ | ⟨-, he⟩
  · omega
  · exact he

theorem exec_rts_of_cons {s : State} {w : Word} {below : List Word} (h : s.stack = w :: below) :
    exec .rts s = .next ({ s with stack := below }.setPc w) := by
  rcases exec_rts_cases s with ⟨hnil, -⟩ | ⟨w', below', hcons, he⟩
  · exact absurd (h.symm.trans hnil) nofun
  · cases h.symm.trans hcons
    exact he

theorem exec_rts_of_nil {s : State} (h : s.stack = []) : exec .rts s = .next (s.raise .stackUnderflow) := by
  rcases exec_rts_cases s with ⟨-, he⟩ | ⟨w, below, hcons, -⟩
  · exact he
  · exact absurd (h.symm.trans hcons) nofun

theorem frame_stack_setPc (s : State) (entries : List Word) (w : Word) :
    Frame { pc := true, stack := true } s ({ s with stack := entries }.setPc w) :=
  { frame_setPc s w with stack := nofun }

/-- A pushed entry stands in the slot that `SP` named before (R29). -/
theorem State.slot_sp_of_push {s t : State} {w : Word} (h : t.stack = w :: s.stack) : t.slot s.sp = some w := by
  simp [State.slot, State.sp, h]

/-- Settles O34: the two cases of JSR, with the slot of the pushed entry by `State.slot_sp_of_push`. -/
theorem callPushesReturnAddress : Obligations.CallPushesReturnAddress := by
  refine fun nnn s => ⟨decodeWord_encode (.jsr nnn), fun hroom => ?_, fun hfull => ?_⟩
  · exact ⟨_, exec_jsr_of_room hroom nnn, rfl, rfl, State.slot_sp_of_push rfl, zextAddress_toNat nnn,
      frame_stack_setPc ..⟩
  · exact ⟨_, exec_jsr_of_full hfull nnn, raise_reports .., frame_raise ..⟩

/-- Settles O35: the two cases of RTS. -/
theorem returnPopsIntoPc : Obligations.ReturnPopsIntoPc := by
  refine ⟨decodeWord_encode .rts, fun w below s hcons => ?_, fun s hnil => ?_⟩
  · exact ⟨_, exec_rts_of_cons hcons, rfl, rfl, frame_stack_setPc ..⟩
  · exact ⟨_, exec_rts_of_nil hnil, raise_reports .., frame_raise ..⟩

/-- Settles O36: RTS finds the entry that JSR pushed on top of the old stack. -/
theorem callThenReturnLandsAfterCall : Obligations.CallThenReturnLandsAfterCall := fun nnn _ hroom =>
  ⟨_, _, exec_jsr_of_room hroom nnn, exec_rts_of_cons rfl, rfl, rfl⟩

/-! ### Skips (R123 to R126) -/

theorem State.skipIf_beq_pc (s : State) (a b : Byte) :
    (s.skipIf (a == b)).pc = if a = b then s.pc + 2#16 else s.pc := by
  simp [State.skipIf_pc]

theorem State.skipIf_bne_pc (s : State) (a b : Byte) :
    (s.skipIf (a != b)).pc = if a = b then s.pc else s.pc + 2#16 := by
  simp [State.skipIf_pc]

/-- Settles O37: SKEQ skips on equal operands and SKNE on different ones, each in both operand forms. -/
theorem skipsAddTwoOnCondition : Obligations.SkipsAddTwoOnCondition := fun x y nn s =>
  ⟨⟨decodeWord_encode (.skeqImm x nn), _, exec_skeqImm x nn s, s.skipIf_beq_pc .., frame_skipIf ..⟩,
    ⟨decodeWord_encode (.skneImm x nn), _, exec_skneImm x nn s, s.skipIf_bne_pc .., frame_skipIf ..⟩,
    ⟨decodeWord_encode (.skeqReg x y), _, exec_skeqReg x y s, s.skipIf_beq_pc .., frame_skipIf ..⟩,
    ⟨decodeWord_encode (.skneReg x y), _, exec_skneReg x y s, s.skipIf_bne_pc .., frame_skipIf ..⟩⟩

end Sys2Proof.Machine

/-! ## Register and ALU family: moves, logic, arithmetic, shifts and RAND (42_register_alu.md R140 to R154) -/

namespace Sys2Proof.Machine

/-! ### What the five flag writers leave in the registers (R140) -/

@[simp] theorem State.readV_writeFlagThenV_self (s : State) (f : Bool) (x : RegIdx) (b : Byte) :
    (s.writeFlagThenV f x b).readV x = b :=
  State.readV_writeV_self ..

theorem State.readV_writeFlagThenV_VF (s : State) (f : Bool) {x : RegIdx} (hx : x ≠ VF) (b : Byte) :
    (s.writeFlagThenV f x b).readV VF = flagByte f := by
  rw [State.readV_writeFlagThenV, if_neg hx, if_pos rfl]

theorem State.readV_writeFlagThenV_ne (s : State) (f : Bool) {x r : RegIdx} (hx : x ≠ r) (hr : r ≠ VF) (b : Byte) :
    (s.writeFlagThenV f x b).readV r = s.readV r := by
  rw [State.readV_writeFlagThenV, if_neg hx, if_neg hr.symm]

/-! ### The flags as numbers (R149 to R153) -/

@[simp] theorem flagByte_toNat (f : Bool) : (flagByte f).toNat = f.toNat := by
  cases f <;> rfl

theorem carryFlag_toNat (a b : Byte) : (carryFlag a b).toNat = if 255 < a.toNat + b.toNat then 1 else 0 :=
  Bool.cond_decide ..

/-- The statements ask for the borrow, the flag is its opposite (R150, R152). -/
theorem noBorrowFlag_toNat (a b : Byte) : (noBorrowFlag a b).toNat = if a.toNat < b.toNat then 0 else 1 := by
  rw [noBorrowFlag, Bool.toNat, Bool.cond_decide, ← ite_not]
  exact if_congr Nat.not_le rfl rfl

theorem lowBitFlag_toNat (a : Byte) : (lowBitFlag a).toNat = a.toNat % 2 := by
  rw [lowBitFlag, BitVec.getLsbD, Nat.toNat_testBit, Nat.pow_zero, Nat.div_one]

/-- A byte has no bit above bit 7, so dividing by 128 leaves that bit alone (R153). -/
theorem highBitFlag_toNat (a : Byte) : (highBitFlag a).toNat = a.toNat / 128 := by
  rw [highBitFlag, BitVec.getLsbD, Nat.toNat_testBit]
  omega

/-! ### The results as numbers (R143, R149 to R153) -/

/-- The difference modulo 256, the borrowed 256 added before the subtraction (R150, R152). -/
theorem byte_sub_toNat (a b : Byte) : (a - b).toNat = (a.toNat + 256 - b.toNat) % 256 := by
  rw [BitVec.toNat_sub]
  omega

theorem byte_halve_toNat (b : Byte) : (b >>> 1).toNat = b.toNat / 2 :=
  BitVec.toNat_ushiftRight ..

theorem byte_double_toNat (b : Byte) : (b <<< 1).toNat = 2 * b.toNat % 256 := by
  rw [BitVec.toNat_shiftLeft, Nat.shiftLeft_eq, Nat.mul_comm]

/-! ### The operand of the shifts (R151, R153) -/

theorem State.shiftOperand_of_vyCopy {s : State} (h : s.shiftMode = .vyCopy) (x y : RegIdx) :
    s.shiftOperand x y = s.readV y := by
  simp [State.shiftOperand, h]

theorem State.shiftOperand_of_inPlace {s : State} (h : s.shiftMode = .inPlace) (x y : RegIdx) :
    s.shiftOperand x y = s.readV x := by
  simp [State.shiftOperand, h]

/-! ### Arithmetic with a flag (R149, R150, R152) -/

/-- Settles O24: the byte sum, and the carry of the exact sum. -/
theorem addRegistersSetsCarry : Obligations.AddRegistersSetsCarry := by
  refine fun x y s => ⟨decodeWord_encode (.addReg x y), _, exec_addReg x y s, ?_, fun hx => ?_, frame_writeFlagThenV ..⟩
  · rw [State.readV_writeFlagThenV_self, BitVec.toNat_add]
  · rw [State.readV_writeFlagThenV_VF _ _ hx, flagByte_toNat, carryFlag_toNat]

/-- Settles O25: `subFlag` is the no-borrow flag in one mode and 0 in the other. -/
theorem subtractSetsNoBorrow : Obligations.SubtractSetsNoBorrow := by
  refine fun x y s => ⟨decodeWord_encode (.subReg x y), _, exec_subReg x y s, ?_, fun hx hmode => ?_, fun hx hmode => ?_,
    frame_writeFlagThenV ..⟩
  · rw [State.readV_writeFlagThenV_self, byte_sub_toNat]
  · rw [State.readV_writeFlagThenV_VF _ _ hx, flagByte_toNat, hmode, subFlag, noBorrowFlag_toNat]
  · rw [State.readV_writeFlagThenV_VF _ _ hx, flagByte_toNat, hmode, subFlag, Bool.toNat_false]

/-- Settles O26: the operands of SUB exchanged, and no mode. -/
theorem reverseSubtractSetsNoBorrow : Obligations.ReverseSubtractSetsNoBorrow := by
  refine fun x y s => ⟨decodeWord_encode (.rsb x y), _, exec_rsb x y s, ?_, fun hx => ?_, frame_writeFlagThenV ..⟩
  · rw [State.readV_writeFlagThenV_self, byte_sub_toNat]
  · rw [State.readV_writeFlagThenV_VF _ _ hx, flagByte_toNat, noBorrowFlag_toNat]

/-- Settles O29: SUB leaves `V[y]` alone, since `y` is neither its destination nor `VF`, so ADD takes back what SUB took
off. -/
theorem subtractThenAddRestores : Obligations.SubtractThenAddRestores := by
  refine fun x y s hxy hy => ⟨_, _, exec_subReg x y s, exec_addReg x y _, ?_⟩
  rw [State.readV_writeFlagThenV_self, State.readV_writeFlagThenV_self, State.readV_writeFlagThenV_ne _ _ hxy hy,
    BitVec.sub_add_cancel]

/-! ### Shifts (R151, R153) -/

/-- Settles O27: half of the mode's operand, and bit 0 of the original `V[x]` in both modes. -/
theorem shiftRightHalves : Obligations.ShiftRightHalves := by
  refine fun x y s => ⟨decodeWord_encode (.shr x y), _, exec_shr x y s, fun hmode => ?_, fun hmode => ?_, fun hx => ?_,
    frame_writeFlagThenV ..⟩
  · rw [State.readV_writeFlagThenV_self, State.shiftOperand_of_vyCopy hmode, byte_halve_toNat]
  · rw [State.readV_writeFlagThenV_self, State.shiftOperand_of_inPlace hmode, byte_halve_toNat]
  · rw [State.readV_writeFlagThenV_VF _ _ hx, flagByte_toNat, lowBitFlag_toNat]

/-- Settles O28: twice the mode's operand, and bit 7 of the original `V[x]` in both modes. -/
theorem shiftLeftDoubles : Obligations.ShiftLeftDoubles := by
  refine fun x y s => ⟨decodeWord_encode (.shl x y), _, exec_shl x y s, fun hmode => ?_, fun hmode => ?_, fun hx => ?_,
    frame_writeFlagThenV ..⟩
  · rw [State.readV_writeFlagThenV_self, State.shiftOperand_of_vyCopy hmode, byte_double_toNat]
  · rw [State.readV_writeFlagThenV_self, State.shiftOperand_of_inPlace hmode, byte_double_toNat]
  · rw [State.readV_writeFlagThenV_VF _ _ hx, flagByte_toNat, highBitFlag_toNat]

/-! ### Moves, logic, ADD VX, NN and RAND: one destination, no flag (R142 to R147, R154) -/

/-- Settles O21: the register reads back the immediate. -/
theorem moveImmediateSetsRegister : Obligations.MoveImmediateSetsRegister := fun x nn s =>
  ⟨decodeWord_encode (.movImm x nn), _, exec_movImm x nn s, s.readV_writeV_self .., frame_writeV ..⟩

/-- Settles O22: the register reads back the byte sum. -/
theorem addImmediateKeepsFlag : Obligations.AddImmediateKeepsFlag := by
  refine fun x nn s => ⟨decodeWord_encode (.addImm x nn), _, exec_addImm x nn s, ?_, frame_writeV ..⟩
  rw [State.readV_writeV_self, BitVec.toNat_add]

/-- Settles O23: each of the four writes its own value to the one destination. -/
theorem moveAndLogicSetDestination : Obligations.MoveAndLogicSetDestination := fun x y s =>
  ⟨⟨decodeWord_encode (.movReg x y), _, exec_movReg x y s, s.readV_writeV_self .., frame_writeV ..⟩,
    ⟨decodeWord_encode (.orReg x y), _, exec_orReg x y s, s.readV_writeV_self .., frame_writeV ..⟩,
    ⟨decodeWord_encode (.andReg x y), _, exec_andReg x y s, s.readV_writeV_self .., frame_writeV ..⟩,
    ⟨decodeWord_encode (.xorReg x y), _, exec_xorReg x y s, s.readV_writeV_self .., frame_writeV ..⟩⟩

/-- Settles O30: the register reads back the CYCLE's byte under the mask. -/
theorem randomByteMasked : Obligations.RandomByteMasked := fun x nn s =>
  ⟨decodeWord_encode (.rand x nn), _, exec_rand x nn s, s.readV_writeV_self .., frame_writeV ..⟩

end Sys2Proof.Machine

/-! ## Index-register family: MVI and ADI (43_index_register.md R170, R171) -/

namespace Sys2Proof.Machine

/-! ### The index register and the flag of ADI as numbers -/

/-- `I` keeps the low 12 bits of what is written to it (R25). -/
theorem State.writeIndex_index_toNat (s : State) (w : Word) : (s.writeIndex w).index.toNat = w.toNat % 4096 := by
  rw [State.writeIndex_index, BitVec.toNat_and]
  exact Nat.and_two_pow_sub_one_eq_mod w.toNat 12

/-- An address that fits in 12 bits loses nothing to the mask of `I` (R170). -/
theorem State.writeIndex_zextAddress_toNat (s : State) (nnn : Addr12) :
    (s.writeIndex (zextAddress nnn)).index.toNat = nnn.toNat := by
  rw [State.writeIndex_index_toNat, zextAddress_toNat]
  exact Nat.mod_eq_of_lt nnn.isLt

/-- A sum written to `I` is reduced modulo 4096: cutting it to 16 bits first drops only multiples of 4096 (R171). -/
theorem State.writeIndex_ofNat_toNat (s : State) (n : Nat) :
    (s.writeIndex (BitVec.ofNat 16 n)).index.toNat = n % 4096 := by
  rw [State.writeIndex_index_toNat, BitVec.toNat_ofNat]
  exact Nat.mod_mod_of_dvd n (by decide)

theorem indexOverflowFlag_toNat (i : Word) (b : Byte) :
    (indexOverflowFlag i b).toNat = if 0xFFF < i.toNat + b.toNat then 1 else 0 :=
  Bool.cond_decide ..

/-! ### MVI and ADI -/

/-- Settles O31: the operand has 12 bits, so the mask of `I` keeps all of it. -/
theorem setIndexStoresAddress : Obligations.SetIndexStoresAddress := fun nnn s =>
  ⟨decodeWord_encode (.mvi nnn), _, exec_mvi nnn s, s.writeIndex_zextAddress_toNat nnn,
    frame_of_exec (exec_mvi nnn s)⟩

/-- Settles O32: sum and flag are taken before `VF` is written, so `x = 0xF` needs no case of its own. -/
theorem addToIndexSetsOverflow : Obligations.AddToIndexSetsOverflow := by
  refine fun x s => ⟨decodeWord_encode (.adi x), _, exec_adi x s, ?_, ?_, frame_writeFlag_writeIndex ..⟩
  · rw [State.writeIndex_ofNat_toNat, indexSum]
  · rw [State.readV_writeIndex, State.readV_writeFlag, if_pos rfl, flagByte_toNat, indexOverflowFlag_toNat]

end Sys2Proof.Machine

/-! ## Display family: CLS and DRAW (44_display.md R180 to R183) -/

namespace Sys2Proof.Machine

/-! ### Drawing a mask by XOR (R182) -/

/-- `cv'` is `cv` with the pixels of the mask `m` turned over: a place off the display has no pixel to turn over, and a
collision is noted when a pixel of the mask was lit. -/
structure Canvas.Xored (cv : Canvas) (m : Nat → Nat → Bool) (cv' : Canvas) : Prop where
  pixel : ∀ i j : Nat, Display.pixel cv'.disp i j = (Display.pixel cv.disp i j).map (· ^^ m i j)
  collided : cv'.collided = true ↔
    cv.collided = true ∨ ∃ i j : Nat, Display.pixel cv.disp i j = some true ∧ m i j = true

/-- A mask that lies off the display draws nothing. -/
theorem Canvas.Xored.of_off_display (cv : Canvas) {m : Nat → Nat → Bool}
    (hm : ∀ i j, m i j = true → Display.pixel cv.disp i j = none) : cv.Xored m cv where
  pixel i j := by
    cases h : m i j with
    | true => simp [hm i j h]
    | false => simp
  collided := by
    refine (or_iff_left ?_).symm
    rintro ⟨i, j, hlit, hmask⟩
    exact absurd (hlit.symm.trans (hm i j hmask)) nofun

/-- Outside the mask a pixel is lit exactly when it was lit before. -/
theorem Canvas.Xored.lit_iff {cv cv' : Canvas} {m : Nat → Nat → Bool} (h : cv.Xored m cv') {i j : Nat}
    (hm : m i j = false) : Display.pixel cv'.disp i j = some true ↔ Display.pixel cv.disp i j = some true := by
  simp [h.pixel i j, hm]

/-- Two masks drawn one after the other are their union, provided that they do not meet: the second then collides with
the pixels that were lit before the first. -/
theorem Canvas.Xored.trans {cv cv' cv'' : Canvas} {m m' : Nat → Nat → Bool} (h : cv.Xored m cv') (h' : cv'.Xored m' cv'')
    (hdisj : ∀ i j, m' i j = true → m i j = false) : cv.Xored (fun i j => m i j || m' i j) cv'' where
  pixel i j := by
    rw [h'.pixel, h.pixel, Option.map_map]
    refine congrArg (Option.map · _) (funext fun p => ?_)
    cases hm' : m' i j with
    | true => simp [hdisj i j hm']
    | false => simp
  collided := by
    have hlit : (∃ i j, Display.pixel cv'.disp i j = some true ∧ m' i j = true) ↔
        ∃ i j, Display.pixel cv.disp i j = some true ∧ m' i j = true :=
      exists₂_congr fun i j => and_congr_left fun hm' => h.lit_iff (hdisj i j hm')
    rw [h'.collided, h.collided, hlit]
    simp only [Bool.or_eq_true, and_or_left, exists_or, or_assoc]

/-! ### The mask of the sprite (R181) -/

/-- The mask of `n` sprite rows from sprite row `r` on, with the anchor at column `x0` and row `y0`. -/
def State.rowsMask (s : State) (x0 y0 n r i j : Nat) : Bool :=
  decide (y0 + r ≤ i ∧ i < y0 + r + n ∧ x0 ≤ j ∧ j < x0 + 8) &&
    (s.mem.read (s.index.toNat + (i - y0))).getLsbD (7 - (j - x0))

theorem State.rowsMask_eq_true_iff (s : State) (x0 y0 n r i j : Nat) : s.rowsMask x0 y0 n r i j = true ↔
    (y0 + r ≤ i ∧ i < y0 + r + n ∧ x0 ≤ j ∧ j < x0 + 8) ∧
      (s.mem.read (s.index.toNat + (i - y0))).getLsbD (7 - (j - x0)) = true := by
  rw [State.rowsMask, Bool.and_eq_true, decide_eq_true_iff]

/-- The whole sprite is its `n` rows from row 0 on, at the wrapped anchor (R182). -/
theorem State.spritePixel_eq_rowsMask (s : State) (x y : RegIdx) (n : Nibble) :
    s.spritePixel x y n = s.rowsMask (s.anchorColumn x) (s.anchorRow y) n.toNat 0 := rfl

theorem State.rowsMask_succ (s : State) (x0 y0 n r : Nat) : s.rowsMask x0 y0 (n + 1) r =
    fun i j => s.rowsMask x0 y0 1 r i j || s.rowsMask x0 y0 n (r + 1) i j := by
  funext i j
  rw [Bool.eq_iff_iff, Bool.or_eq_true]
  simp only [State.rowsMask_eq_true_iff, ← or_and_right]
  exact and_congr_left fun _ => by omega

theorem State.rowsMask_disjoint (s : State) {x0 y0 n r i j : Nat} (h : s.rowsMask x0 y0 n (r + 1) i j = true) :
    s.rowsMask x0 y0 1 r i j = false := by
  obtain ⟨hpos, -⟩ := (s.rowsMask_eq_true_iff ..).mp h
  refine Bool.eq_false_iff.mpr fun h' => ?_
  obtain ⟨hpos', -⟩ := (s.rowsMask_eq_true_iff ..).mp h'
  omega

/-- One row of the sprite: the byte at `I + r`, in display row `y0 + r`. -/
theorem State.rowsMask_one_eq_true_iff (s : State) (x0 y0 r i j : Nat) : s.rowsMask x0 y0 1 r i j = true ↔
    i = y0 + r ∧ x0 ≤ j ∧ j < x0 + 8 ∧ (s.mem.read (s.index.toNat + r)).getLsbD (7 - (j - x0)) = true := by
  rw [State.rowsMask_eq_true_iff]
  constructor
  · rintro ⟨⟨hlo, hhi, hcol⟩, hbit⟩
    obtain rfl : i = y0 + r := by omega
    rw [Nat.add_sub_cancel_left] at hbit
    exact ⟨rfl, hcol.1, hcol.2, hbit⟩
  · rintro ⟨rfl, hlo, hhi, hbit⟩
    rw [Nat.add_sub_cancel_left]
    exact ⟨by omega, hbit⟩

/-! ### Drawing the sprite row by row (R182) -/

theorem Canvas.drawRow_xored (s : State) (cv : Canvas) (x0 : Nat) {y0 r : Nat} (hr : y0 + r < 32) :
    cv.Xored (s.rowsMask x0 y0 1 r) (cv.drawRow ⟨y0 + r, hr⟩ x0 (s.mem.read (s.index.toNat + r))) where
  pixel i j := by
    by_cases hin : i < 32 ∧ j < 64
    · obtain ⟨hi, hj⟩ := hin
      have hmask := Bool.eq_iff_iff.mpr ((s.rowsMask_one_eq_true_iff x0 y0 r i j).trans decide_eq_true_iff.symm)
      rw [Display.pixel_inside _ hi hj, Display.pixel_inside _ hi hj, Canvas.drawRow_disp _ _ _ _ hi hj, hmask,
        Option.map_some]
    · rw [Display.pixel_outside _ hin, Display.pixel_outside _ hin, Option.map_none]
  collided := by
    simp only [Canvas.drawRow_collided, State.rowsMask_one_eq_true_iff]
    refine or_congr_right ⟨?_, ?_⟩
    · rintro ⟨j, hj, hlo, hhi, hbit, hlit⟩
      exact ⟨y0 + r, j, (Display.pixel_inside _ hr hj).trans (congrArg some hlit), rfl, hlo, hhi, hbit⟩
    · rintro ⟨_, j, hlit, rfl, hlo, hhi, hbit⟩
      by_cases hj : j < 64
      · exact ⟨j, hj, hlo, hhi, hbit, Option.some.inj ((Display.pixel_inside _ hr hj).symm.trans hlit)⟩
      · exact absurd (hlit.symm.trans (Display.pixel_outside _ fun h => hj h.2)) nofun

/-- Rows from the bottom edge on lie off the display, so they draw nothing (R182). -/
theorem Canvas.xored_below_display (s : State) (cv : Canvas) (x0 : Nat) {y0 r : Nat} (n : Nat) (hr : 32 ≤ y0 + r) :
    cv.Xored (s.rowsMask x0 y0 n r) cv := by
  refine Canvas.Xored.of_off_display cv fun i j hmask => Display.pixel_outside _ fun hin => ?_
  obtain ⟨hpos, -⟩ := (s.rowsMask_eq_true_iff ..).mp hmask
  omega

/-- A row loop that completes has drawn the mask of its rows. -/
theorem State.xored_of_drawRows (s : State) {x0 y0 n r : Nat} {cv cv' : Canvas}
    (h : s.drawRows x0 y0 n r cv = some cv') : cv.Xored (s.rowsMask x0 y0 n r) cv' := by
  induction n generalizing r cv with
  | zero =>
    cases h
    refine Canvas.Xored.of_off_display _ fun i j hmask => ?_
    obtain ⟨hpos, -⟩ := (s.rowsMask_eq_true_iff ..).mp hmask
    omega
  | succ n ih =>
    rcases s.drawRows_succ x0 y0 n r cv with ⟨hedge, he⟩ | ⟨hrow, -, he⟩ | ⟨-, -, he⟩
    · cases he.symm.trans h
      exact Canvas.xored_below_display s _ x0 _ hedge
    · rw [State.rowsMask_succ]
      exact (Canvas.drawRow_xored s _ x0 hrow).trans (ih (he.symm.trans h)) fun _ _ => s.rowsMask_disjoint
    · exact absurd (he.symm.trans h) nofun

/-- The row loop fails exactly when a row above the bottom edge has its byte beyond memory (R182, D14). -/
theorem State.drawRows_eq_none_iff (s : State) (x0 y0 n r : Nat) (cv : Canvas) :
    s.drawRows x0 y0 n r cv = none ↔ ∃ k, r ≤ k ∧ k < r + n ∧ y0 + k < 32 ∧ 0xFFF < s.index.toNat + k := by
  induction n generalizing r cv with
  | zero => exact iff_of_false nofun fun ⟨k, hlo, hhi, _⟩ => by omega
  | succ n ih =>
    rcases s.drawRows_succ x0 y0 n r cv with ⟨hedge, he⟩ | ⟨hrow, hin, he⟩ | ⟨hrow, habove, he⟩ <;> rw [he]
    · exact iff_of_false nofun fun ⟨k, hlo, _, hk, _⟩ => by omega
    · rw [ih]
      refine exists_congr fun k => ⟨fun ⟨hlo, hhi, hk⟩ => ⟨by omega, by omega, hk⟩, fun ⟨hlo, hhi, hk, habove⟩ => ?_⟩
      have hne : k ≠ r := by
        rintro rfl
        omega
      exact ⟨by omega, by omega, hk, habove⟩
    · exact iff_of_true rfl ⟨r, Nat.le_refl r, by omega, hrow, habove⟩

/-! ### DRAW (R181, R182) -/

theorem State.drawRows_eq_none_iff_not_spriteReadable (s : State) (x y : RegIdx) (n : Nibble) (cv : Canvas) :
    s.drawRows (s.anchorColumn x) (s.anchorRow y) n.toNat 0 cv = none ↔ ¬ s.spriteReadable y n := by
  simp [State.drawRows_eq_none_iff, State.spriteReadable, State.anchorRow, Config.displayRows]

/-- With its rows inside memory, DRAW completes with the sprite drawn on the display. -/
theorem exec_draw_of_readable {s : State} {y : RegIdx} {n : Nibble} (h : s.spriteReadable y n) (x : RegIdx) :
    ∃ cv, Canvas.Xored { disp := s.disp, collided := false } (s.spritePixel x y n) cv ∧
      exec (.draw x y n) s = .next { s.writeFlag cv.collided with disp := cv.disp, drawFlag := true } := by
  rcases exec_draw_cases x y n s with ⟨cv, hcv, he⟩ | ⟨hnone, -⟩
  · exact ⟨cv, s.xored_of_drawRows hcv, he⟩
  · exact absurd h ((s.drawRows_eq_none_iff_not_spriteReadable x y n _).mp hnone)

theorem exec_draw_of_not_readable {s : State} {y : RegIdx} {n : Nibble} (h : ¬ s.spriteReadable y n) (x : RegIdx) :
    exec (.draw x y n) s = .next (s.scrambleDisplay.raise .outOfBoundsAccess) := by
  rcases exec_draw_cases x y n s with ⟨cv, hcv, -⟩ | ⟨-, he⟩
  · exact absurd (hcv.symm.trans ((s.drawRows_eq_none_iff_not_spriteReadable x y n _).mpr h)) nofun
  · exact he

theorem readV_VF_drawn (s : State) (cv : Canvas) :
    ({ s.writeFlag cv.collided with disp := cv.disp, drawFlag := true } : State).readV VF = flagByte cv.collided :=
  (s.readV_writeFlag cv.collided VF).trans (if_pos rfl)

/-- Settles O40: the canvas of `exec_draw_of_readable`, whose collision note starts clear and ends in `VF`. -/
theorem drawXorsSprite : Obligations.DrawXorsSprite := by
  refine fun x y n s => ⟨decodeWord_encode (.draw x y n), fun hread => ?_⟩
  obtain ⟨cv, hcv, he⟩ := exec_draw_of_readable hread x
  have hcoll : cv.collided = true ↔ ∃ r c : Nat, s.pixel r c = some true ∧ s.spritePixel x y n r c = true :=
    hcv.collided.trans (or_iff_right nofun)
  refine ⟨_, he, hcv.pixel, fun hhit => ?_, fun hmiss => ?_, rfl, frame_drawn s cv⟩
  · rw [readV_VF_drawn, flagByte, if_pos (hcoll.mpr hhit)]
  · rw [readV_VF_drawn, flagByte, if_neg (mt hcoll.mp hmiss)]

/-- Settles O41: the failed DRAW frees the display and `VF` and records the failure. -/
theorem drawBeyondMemoryFails : Obligations.DrawBeyondMemoryFails := fun x _ _ s hread =>
  ⟨_, exec_draw_of_not_readable hread x, raise_reports .., frame_scramble_raise s .outOfBoundsAccess⟩

/-! ### A second DRAW of the same sprite (R183) -/

/-- The sprite depends on memory, on `I` and on the wrapped anchor alone. -/
theorem State.spritePixel_congr {s t : State} {x y : RegIdx} (hmem : t.mem = s.mem) (hindex : t.index = s.index)
    (hx : (t.readV x).toNat % 64 = (s.readV x).toNat % 64) (hy : (t.readV y).toNat % 32 = (s.readV y).toNat % 32)
    (n : Nibble) : t.spritePixel x y n = s.spritePixel x y n := by
  funext r c
  simp only [State.spritePixel, hmem, hindex, hx, hy]

theorem State.spriteReadable_congr {s t : State} {y : RegIdx} (hindex : t.index = s.index)
    (hy : (t.readV y).toNat % 32 = (s.readV y).toNat % 32) (n : Nibble) :
    t.spriteReadable y n ↔ s.spriteReadable y n := by
  simp only [State.spriteReadable, hindex, hy]

/-- Settles O42: the first DRAW writes neither memory nor `I`, so O40 holds of the same sprite for the second, and a pixel
turned over twice is as it was. -/
theorem drawTwiceRestoresDisplay : Obligations.DrawTwiceRestoresDisplay := by
  intro x y n s t hread ht hx hy
  obtain ⟨cv, hcv, he⟩ := exec_draw_of_readable hread x
  obtain ⟨hpixel, hmem, hindex⟩ : (∀ r c : Nat, t.pixel r c = (s.pixel r c).map (· ^^ s.spritePixel x y n r c)) ∧
      t.mem = s.mem ∧ t.index = s.index := by
    cases he.symm.trans ht
    exact ⟨hcv.pixel, rfl, rfl⟩
  obtain ⟨u, hu, hpixel', hhit, hmiss, -⟩ :=
    (drawXorsSprite x y n t).2 ((State.spriteReadable_congr hindex hy n).mpr hread)
  rw [State.spritePixel_congr hmem hindex hx hy n] at hpixel' hhit hmiss
  refine ⟨u, hu, fun r c => ?_, hhit, hmiss⟩
  rw [hpixel', hpixel]
  cases s.pixel r c with
  | none => rfl
  | some p => simp

/-! ### CLS (R180) -/

/-- Settles O39: the blank display, and the frame of CLS. -/
theorem clearScreenBlanks : Obligations.ClearScreenBlanks :=
  ⟨decodeWord_encode .cls, fun s =>
    ⟨_, exec_cls s, fun _ _ => Display.blank_pixel, rfl, frame_of_exec (exec_cls s)⟩⟩

end Sys2Proof.Machine

/-! ## Keypad and timer family: SKPR, SKUP, KEY and the timer moves (45_keypad_timer_ops.md R200 to R205) -/

namespace Sys2Proof.Machine

/-! ### The keypad as the instructions see it (R32, R203) -/

theorem State.lt_sixteen_of_key {s : State} {k : Nat} {p : Bool} (h : s.key k = some p) : k < 16 := by
  rcases s.key_cases k with ⟨hk, -⟩ | ⟨-, hnone⟩
  · exact hk
  · exact absurd (h.symm.trans hnone) nofun

/-- The scan stops at a pressed key below which none is pressed: nothing lower stops it, and it does not pass. -/
theorem State.firstPressed_of_lowest {s : State} {k : Nat} (hk : s.key k = some true)
    (hlow : ∀ j, j < k → s.key j = some false) : s.firstPressed = some k := by
  rcases s.firstPressed_cases with ⟨k', -, hfirst, hk', hlow'⟩ | ⟨-, hnone⟩
  · rcases Nat.lt_trichotomy k k' with hlt | rfl | hgt
    · exact absurd hk (hlow' k hlt)
    · exact hfirst
    · exact absurd (hk'.symm.trans (hlow k' hgt)) (by decide)
  · exact absurd hk (hnone k (State.lt_sixteen_of_key hk))

theorem State.firstPressed_of_none_pressed {s : State} (hnone : ∀ k, s.key k ≠ some true) : s.firstPressed = none := by
  rcases s.firstPressed_cases with ⟨k, -, -, hk, -⟩ | ⟨hfirst, -⟩
  · exact absurd hk (hnone k)
  · exact hfirst

/-! ### KEY (R203, R274) -/

theorem exec_key_of_lowest {s : State} {k : Nat} (hk : s.key k = some true)
    (hlow : ∀ j, j < k → s.key j = some false) (x : RegIdx) :
    exec (.key x) s = .next (s.writeV x (BitVec.ofNat 8 k)) := by
  have hfirst := State.firstPressed_of_lowest hk hlow
  rcases exec_key_cases x s with ⟨k', -, hfirst', he⟩ | ⟨hfirst', -⟩
  · cases hfirst.symm.trans hfirst'
    exact he
  · exact absurd (hfirst.symm.trans hfirst') nofun

theorem exec_key_of_none_pressed {s : State} (hnone : ∀ k, s.key k ≠ some true) (x : RegIdx) :
    exec (.key x) s = .next s.rewind := by
  have hfirst := State.firstPressed_of_none_pressed hnone
  rcases exec_key_cases x s with ⟨k, -, hfirst', -⟩ | ⟨-, he⟩
  · exact absurd (hfirst.symm.trans hfirst') nofun
  · exact he

/-- Settles O45: the key index is below 16, so it fits in the destination's byte. -/
theorem keyStoresLowestPressed : Obligations.KeyStoresLowestPressed := by
  refine fun x s => ⟨decodeWord_encode (.key x), fun k hk hlow => ?_, fun hnone => ?_⟩
  · have hk16 := State.lt_sixteen_of_key hk
    refine ⟨_, exec_key_of_lowest hk hlow x, ?_, frame_writeV ..⟩
    rw [State.readV_writeV_self, BitVec.toNat_ofNat, Nat.mod_eq_of_lt (by omega)]
  · exact ⟨_, exec_key_of_none_pressed hnone x, rfl, frame_setPc ..⟩

/-- An instruction that only moves `PC`, and moves it back to its own address, leaves of its CYCLE the noted input, the
cleared result and the cleared `draw_flag` (R230, R274). -/
theorem frame_cycle_of_pc_restored {s t : State} {rnd : Byte} {w : Word} (h : Frame { pc := true } (s.entering rnd w) t)
    (hpc : t.pc = s.pc) : Frame { status := true, drawFlag := true, cycInput := true } s t :=
  { h with
    pc := fun _ => hpc
    drawFlag := nofun
    halted := nofun
    fault := nofun
    result := nofun
    cycAddr := nofun
    cycWord := nofun
    cycRnd := nofun }

/-- Settles O46: the fetch takes `PC` two up, the rewind of KEY two down again. -/
theorem keyWaitsInPlace : Obligations.KeyWaitsInPlace := by
  intro rnd x s hrun hfetch hnone
  have hcycle := (cycle_of_decoded hrun hfetch (decodeWord_encode (.key x)) rnd).trans
    (exec_key_of_none_pressed (s := s.entering rnd _) hnone x)
  have hpc : s.pc + 2#16 - 2#16 = s.pc := BitVec.add_sub_cancel ..
  exact ⟨_, hcycle, hpc, hrun, rfl, rfl, rfl, frame_cycle_of_pc_restored (frame_setPc ..) hpc⟩

/-! ### SKPR and SKUP (R200, R201) -/

theorem exec_skpr_of_key {s : State} {x : RegIdx} {p : Bool} (h : s.key (s.readV x).toNat = some p) :
    exec (.skpr x) s = .next (s.skipIf p) := by
  rcases exec_skpr_cases x s with ⟨p', hp, he⟩ | ⟨habove, -⟩
  · cases h.symm.trans hp
    exact he
  · exact absurd (State.lt_sixteen_of_key h) (Nat.not_lt.mpr habove)

theorem exec_skup_of_key {s : State} {x : RegIdx} {p : Bool} (h : s.key (s.readV x).toNat = some p) :
    exec (.skup x) s = .next (s.skipIf !p) := by
  rcases exec_skup_cases x s with ⟨p', hp, he⟩ | ⟨habove, -⟩
  · cases h.symm.trans hp
    exact he
  · exact absurd (State.lt_sixteen_of_key h) (Nat.not_lt.mpr habove)

theorem exec_skpr_of_above {s : State} {x : RegIdx} (h : 15 < (s.readV x).toNat) :
    exec (.skpr x) s = .next (s.raise .invalidKeyIndex) := by
  rcases exec_skpr_cases x s with ⟨p, hp, -⟩ | ⟨-, he⟩
  · exact absurd (State.lt_sixteen_of_key hp) (Nat.not_lt.mpr h)
  · exact he

theorem exec_skup_of_above {s : State} {x : RegIdx} (h : 15 < (s.readV x).toNat) :
    exec (.skup x) s = .next (s.raise .invalidKeyIndex) := by
  rcases exec_skup_cases x s with ⟨p, hp, -⟩ | ⟨-, he⟩
  · exact absurd (State.lt_sixteen_of_key hp) (Nat.not_lt.mpr h)
  · exact he

theorem State.skipIf_not_pc (s : State) (c : Bool) : (s.skipIf !c).pc = if c = true then s.pc else s.pc + 2#16 := by
  cases c <;> rfl

/-- Settles O43: both skip by the selected key's flag, SKUP by its opposite. -/
theorem keySkipsFollowKeypad : Obligations.KeySkipsFollowKeypad := fun x p s hkey =>
  ⟨⟨decodeWord_encode (.skpr x), _, exec_skpr_of_key hkey, s.skipIf_pc p, frame_skipIf ..⟩,
    ⟨decodeWord_encode (.skup x), _, exec_skup_of_key hkey, s.skipIf_not_pc p, frame_skipIf ..⟩⟩

/-- Settles O44: both raise the failure, and raising writes the status alone. -/
theorem keyIndexAboveFifteenFails : Obligations.KeyIndexAboveFifteenFails := fun _ _ habove =>
  ⟨⟨_, exec_skpr_of_above habove, raise_reports .., frame_raise ..⟩,
    ⟨_, exec_skup_of_above habove, raise_reports .., frame_raise ..⟩⟩

/-! ### GDELAY, SDELAY and SSOUND (R202, R204, R205) -/

/-- Settles O47: the sound output is the register `ST` itself. -/
theorem timerMovesCopy : Obligations.TimerMovesCopy := fun x s =>
  ⟨⟨decodeWord_encode (.gdelay x), _, exec_gdelay x s, s.readV_writeV_self .., frame_writeV ..⟩,
    ⟨decodeWord_encode (.sdelay x), _, exec_sdelay x s, rfl, frame_of_exec (exec_sdelay x s)⟩,
    ⟨decodeWord_encode (.ssound x), _, exec_ssound x s, rfl, frame_of_exec (exec_ssound x s)⟩⟩

end Sys2Proof.Machine

/-! ## Exceptions family: failures, the halted state and TICK (60_exceptions.md R220 to R235) -/

namespace Sys2Proof

/-- The frame of the state family opens the status exactly for R220's column "Raised by". -/
theorem Instr.writes_status (i : Instr) : i.writes.status = i.canFail := by
  cases i <;> rfl

end Sys2Proof

namespace Sys2Proof.Machine

/-! ### The result of an instruction (R222 to R226) -/

/-- No failure was recorded on the way from `s` to `t`. -/
def SameStatus (s t : State) : Prop :=
  t.fault = s.fault ∧ t.halted = s.halted ∧ t.cyc.result = s.cyc.result

/-- What follows a fetch may end in two ways: with no failure, or with one that is not the fetch's, `PC` kept. -/
def CompletesOrFails (s t : State) : Prop :=
  SameStatus s t ∨ ∃ k, k ≠ .outOfBoundsFetch ∧ Reports k s t ∧ t.pc = s.pc

theorem Frame.sameStatus {w : Writes} {s t : State} (h : Frame w s t) (hw : w.status = false) : SameStatus s t :=
  ⟨h.fault hw, h.halted hw, h.result hw⟩

theorem completesOrFails_raise (s : State) {k : FailureKind} (hk : k ≠ .outOfBoundsFetch) :
    CompletesOrFails s (s.raise k) :=
  .inr ⟨k, hk, raise_reports s k, rfl⟩

theorem completesOrFails_skipIf (s : State) (c : Bool) : CompletesOrFails s (s.skipIf c) :=
  .inl ((frame_skipIf s c).sameStatus rfl)

theorem exec_sameStatus {i : Instr} (hi : i.canFail = false) (s : State) : ∃ t, exec i s = .next t ∧ SameStatus s t := by
  obtain ⟨t, ht, hframe⟩ := exec_frame i s
  exact ⟨t, ht, hframe.sameStatus (i.writes_status.trans hi)⟩

/-- Settles O14: the frame of an instruction outside "Raised by" keeps the status. -/
theorem otherInstructionsNeverFail : Obligations.OtherInstructionsNeverFail := fun _ s hi => exec_sameStatus hi s

/-- The five instructions of "Raised by" complete or raise their one failure; the others complete. -/
theorem exec_completesOrFails (i : Instr) (s : State) : ∃ t, exec i s = .next t ∧ CompletesOrFails s t := by
  cases i with
  | rts =>
    rcases exec_rts_cases s with ⟨-, he⟩ | ⟨w, below, -, he⟩
    · exact ⟨_, he, completesOrFails_raise s nofun⟩
    · exact ⟨_, he, .inl ⟨rfl, rfl, rfl⟩⟩
  | jsr nnn =>
    rcases exec_jsr_cases nnn s with ⟨-, he⟩ | ⟨-, he⟩
    · exact ⟨_, he, .inl ⟨rfl, rfl, rfl⟩⟩
    · exact ⟨_, he, completesOrFails_raise s nofun⟩
  | skpr x =>
    rcases exec_skpr_cases x s with ⟨p, -, he⟩ | ⟨-, he⟩
    · exact ⟨_, he, completesOrFails_skipIf s p⟩
    · exact ⟨_, he, completesOrFails_raise s nofun⟩
  | skup x =>
    rcases exec_skup_cases x s with ⟨p, -, he⟩ | ⟨-, he⟩
    · exact ⟨_, he, completesOrFails_skipIf s !p⟩
    · exact ⟨_, he, completesOrFails_raise s nofun⟩
  | draw x y n =>
    rcases exec_draw_cases x y n s with ⟨cv, -, he⟩ | ⟨-, he⟩
    · exact ⟨_, he, .inl ((frame_drawn s cv).sameStatus rfl)⟩
    · exact ⟨_, he, completesOrFails_raise s.scrambleDisplay nofun⟩
  | _ => exact (exec_sameStatus (by rfl) s).imp fun _ ⟨he, hsame⟩ => ⟨he, .inl hsame⟩

/-! ### The result of a CYCLE (R223, R228) -/

/-- After the fetch, an unmatched word fails and a decoded instruction completes or fails. -/
theorem cycle_completesOrFails {s : State} {w : Word} (hrun : s.halted = false) (hf : s.fetchWord = some w)
    (rnd : Byte) : ∃ t, cycle rnd s = .next t ∧ CompletesOrFails (s.atExecute rnd w) t := by
  cases hd : decodeWord w with
  | error r => exact ⟨_, cycle_of_rejected hrun hf hd rnd, completesOrFails_raise _ nofun⟩
  | ok i =>
    rw [cycle_of_decoded hrun hf hd rnd]
    exact exec_completesOrFails i (s.atExecute rnd w)

/-- Settles O13: the three outcomes are a failed fetch and the two ends of `CompletesOrFails` after one that succeeds. -/
theorem cycleReportsOneResult : Obligations.CycleReportsOneResult := by
  intro rnd s t hrun ht
  rcases s.fetchWord_cases with ⟨-, hf⟩ | ⟨habove, -⟩
  · obtain ⟨t', ht', hend⟩ := cycle_completesOrFails hrun hf rnd
    cases ht'.symm.trans ht
    rcases hend with ⟨hfault, hhalted, hresult⟩ | ⟨k, hk, ⟨hfault, hresult, hhalted⟩, hpc⟩
    · exact .inl ⟨hresult, hfault, hhalted.trans hrun⟩
    · have hfatal : t.halted = k.fatal := by simpa [hrun] using hhalted
      exact .inr (.inr ⟨k, _, hk, hf, hresult, hfatal, hpc, hfault⟩)
  · cases (cycle_of_failed_fetch hrun habove rnd).symm.trans ht
    exact .inr (.inl ⟨rfl, Bool.or_true _, rfl, rfl⟩)

/-! ### Every command is answered by a next state (R223) -/

theorem cycle_next (rnd : Byte) (s : State) : ∃ t, cycle rnd s = .next t := by
  rcases cycle_cases rnd s with ⟨-, hc⟩ | ⟨-, -, hc⟩ | ⟨w, r, -, -, -, hc⟩ | ⟨w, i, -, -, -, hc⟩
  · exact ⟨_, hc⟩
  · exact ⟨_, hc⟩
  · exact ⟨_, hc⟩
  · exact hc ▸ exec_next i _

theorem issue_next (c : Command) (s : State) : ∃ t, issue c s = .next t := by
  cases c with
  | cycle rnd => exact cycle_next rnd s
  | _ => exact ⟨_, rfl⟩

/-- Settles O12: a step is one command, or nothing. -/
theorem everyStepAnswersNext : Obligations.EveryStepAnswersNext := by
  intro s
  rcases step_cases s with ⟨c, s', -, hs⟩ | ⟨s', -, hs⟩
  · exact hs ▸ issue_next c s'
  · exact ⟨s', hs⟩

/-! ### The halted state (R225) -/

theorem cycle_of_halted {s : State} (hh : s.halted = true) (rnd : Byte) : cycle rnd s = .next s.haltedCycle := by
  simp [cycle, hh]

theorem frame_haltedCycle (s : State) : Frame { status := true } s s.haltedCycle := by
  apply frame_of_fields <;> simp

/-- Where the result of the last CYCLE already is the kind held in `fault`, there is nothing left to change. -/
theorem State.haltedCycle_of_result {s : State} (h : s.cyc.result = s.fault.map FaultRecord.kind) :
    s.haltedCycle = s := by
  simp [State.haltedCycle, ← h]

/-- Settles O10: `State.haltedCycle`, which writes the result alone; the invariant says that it already stands there. -/
theorem haltedCycleChangesNothing : Obligations.HaltedCycleChangesNothing := fun rnd s hh =>
  ⟨⟨_, cycle_of_halted hh rnd, rfl, hh, rfl, frame_haltedCycle s⟩, fun hinv =>
    (cycle_of_halted hh rnd).trans (congrArg _ (State.haltedCycle_of_result (hinv.halted_result hh)))⟩

theorem cycle_keeps_halted {rnd : Byte} {s t : State} (hh : s.halted = true) (h : cycle rnd s = .next t) :
    t.halted = true ∧ t.fault = s.fault := by
  cases (cycle_of_halted hh rnd).symm.trans h
  exact ⟨hh, rfl⟩

theorem issue_keeps_halted {c : Command} (hc : ∀ p, c ≠ .create p) {s t : State} (hh : s.halted = true)
    (h : issue c s = .next t) : t.halted = true ∧ t.fault = s.fault := by
  cases c with
  | create p => exact absurd rfl (hc p)
  | cycle rnd => exact cycle_keeps_halted hh h
  | tick => cases h; exact ⟨hh, rfl⟩
  | keySet k p => cases h; exact ⟨hh, rfl⟩
  | load off bytes =>
    cases h
    exact ⟨((frame_load s off bytes).halted rfl).trans hh, (frame_load s off bytes).fault rfl⟩

/-- Settles O11: the driver's turn touches neither `halted` nor `fault`, and no command but CREATE leaves the halted
state. -/
theorem onlyCreateLeavesHalted : Obligations.OnlyCreateLeavesHalted := by
  intro s t hh hcreate ht
  cases hs : s.drv.script with
  | nil =>
    rw [step_of_unscripted hs] at ht
    split at ht
    · cases ht
      exact ⟨hh, rfl⟩
    · exact cycle_keeps_halted (s := s.drawFree) hh ht
  | cons c rest =>
    rw [step_of_scripted hs] at ht
    split at ht
    · cases ht
      exact ⟨hh, rfl⟩
    · exact issue_keeps_halted (s := s.takeScripted rest) (fun p hp => hcreate p rest (hp ▸ hs)) hh ht

/-! ### TICK (R235) -/

/-- Natural subtraction stops at 0, as the timers do (R31). -/
theorem countDown_toNat (b : Byte) : (countDown b).toNat = b.toNat - 1 := by
  unfold countDown
  split
  next h => exact BitVec.toNat_sub_of_le (by simpa [BitVec.le_def] using Nat.succ_le_of_lt h)
  next h => omega

/-- Settles O48: both timers count down, and the frame of TICK holds whether the core is halted or not. -/
theorem tickCountsDown : Obligations.TickCountsDown := fun s =>
  ⟨_, rfl, countDown_toNat s.dt, countDown_toNat s.st, frame_tick s⟩

end Sys2Proof.Machine

/-! ## Reset and hazards family: the jump to its own address (70_reset_and_hazards.md R275) -/

namespace Sys2Proof.Machine

/-- The word of a jump is its family above its target (R93, R100). -/
theorem encode_jmp_eq_or (nnn : Addr12) : encode (.jmp nnn) = 0x1000#16 ||| zextAddress nnn := by
  obtain ⟨-, hword, -⟩ := Laws.formatA 0x1#4 nnn
  exact hword

/-- A `PC` that the fetch accepts is the target of some jump (R65, R92). -/
theorem State.exists_zextAddress_eq_pc {s : State} {w : Word} (h : s.fetchWord = some w) :
    ∃ nnn, zextAddress nnn = s.pc := by
  have hpc := s.pc_le_of_fetchWord h
  refine ⟨s.pc.setWidth 12, BitVec.eq_of_toNat_eq ?_⟩
  rw [zextAddress_toNat, BitVec.toNat_setWidth, Nat.mod_eq_of_lt (by omega)]

/-- Settles O53: the CYCLE runs the jump whose target is `PC`, which moves `PC` back to where the fetch found it. -/
theorem selfJumpLeavesState : Obligations.SelfJumpLeavesState := by
  intro rnd s hrun hfetch
  obtain ⟨nnn, hpc⟩ := State.exists_zextAddress_eq_pc hfetch
  have hdecode : decodeWord (0x1000#16 ||| s.pc) = .ok (.jmp nnn) := by
    rw [← hpc, ← encode_jmp_eq_or, decodeWord_encode]
  have hcycle := (cycle_of_decoded hrun hfetch hdecode rnd).trans (exec_jmp ..)
  exact ⟨_, hcycle, hpc, hrun, rfl, rfl, rfl, frame_cycle_of_pc_restored (frame_setPc ..) hpc⟩

end Sys2Proof.Machine
